-- ==== Sys2Proof/Word.lean ====
section
/-! DEFINITION. The word types of the engine (00_scope.md R8) and the zero byte sequence (R10). -/

namespace Sys2Proof

/-- `u8` of rule R8. -/
abbrev Byte := BitVec 8

/-- `u64` of rule R8: every chaining, working and message word, and every host register (R7). -/
abbrev Word64 := BitVec 64

/-- `u128` of rule R8: the byte counter. -/
abbrev Word128 := BitVec 128

/-- `zeros(n)` of rule R10. -/
def zeros (n : Nat) : Vector Byte n := Vector.replicate n 0

end Sys2Proof
end

