-- ==== Sys2Proof/Syntax.lean ====
section
/-! DEFINITION. The engine's command set (30_encoding.md R93): one constructor per row of spec/opcode_table.json. -/

namespace Sys2Proof

/-- A command with its operand fields, each the unsigned 8-bit field of the command word (R91, R92). No operand names a
register (R92); the bulk operands come from the staging registers and DIN. -/
inductive Instr where
  /-- INIT (R120): F1 = OUTLEN, F2 = KEYLEN, F3 = SALTLEN, F4 = PERSLEN. -/
  | init (outLen keyLen saltLen persLen : Byte)
  /-- UPDATE (R152): F1 = COUNT. -/
  | update (count : Byte)
  /-- DIGEST (R200): F1 = OFFSET. -/
  | digest (offset : Byte)
  /-- RESET (R220). -/
  | reset
  /-- CLEAR_KEY (R221). -/
  | clearKey
  /-- CLEAR_SALT (R222). -/
  | clearSalt
  /-- ACK_ERR (R223). -/
  | ackErr
  deriving DecidableEq, Repr

end Sys2Proof
end

