-- ==== Sys2Proof/WellFormed.lean ====
section
/-! DEFINITION. Which terms of Instr stand for a legal command word (30_encoding.md R94, R95). -/

namespace Sys2Proof

/-- The extra condition of rule R94: UPDATE needs COUNT <= 8. Every other operand value is a legal encoding: values the
operation itself rejects are no illegal encodings (R96). -/
def Instr.wellFormed : Instr → Bool
  | .init _ _ _ _ => true
  | .update count => decide (count.toNat ≤ 8)
  | .digest _ => true
  | .reset => true
  | .clearKey => true
  | .clearSalt => true
  | .ackErr => true

end Sys2Proof
end

