-- ==== Sys2Proof/Decode.lean ====
section
/-! DEFINITION. Decoding and encoding command words, format CMD64 (30_encoding.md R90 to R97). -/

namespace Sys2Proof

/-- Why a command word is illegal (R95); each name is one disjunct of that rule. -/
inductive DecodeError where
  /-- RSV is not 0. -/
  | reservedBits
  /-- The opcode is 0x00 or 0x08..0xFF. -/
  | unknownOpcode
  /-- A field the command does not use is not 0. -/
  | unusedField
  /-- The opcode is UPDATE and COUNT > 8. -/
  | countTooLarge
  deriving DecidableEq, Repr

/-- OP = w[7:0] (R91). -/
def opField (w : Word64) : Byte := w.extractLsb' 0 8

/-- F1 = w[15:8] (R91). -/
def f1Field (w : Word64) : Byte := w.extractLsb' 8 8

/-- F2 = w[23:16] (R91). -/
def f2Field (w : Word64) : Byte := w.extractLsb' 16 8

/-- F3 = w[31:24] (R91). -/
def f3Field (w : Word64) : Byte := w.extractLsb' 24 8

/-- F4 = w[39:32] (R91). -/
def f4Field (w : Word64) : Byte := w.extractLsb' 32 8

/-- RSV = w[63:40] (R91). -/
def rsvField (w : Word64) : BitVec 24 := w.extractLsb' 40 24

/-- The fields UPDATE and DIGEST do not use, F2, F3 and F4, are all 0 (R93). -/
def tailClear (w : Word64) : Bool := f2Field w == 0 && f3Field w == 0 && f4Field w == 0

/-- No operand field is set: the condition of RESET, CLEAR_KEY, CLEAR_SALT and ACK_ERR (R93). -/
def operandsClear (w : Word64) : Bool := f1Field w == 0 && tailClear w

/-- A command without operands, legal only when every operand field is 0 (R93, R95). -/
def bareCommand (w : Word64) (i : Instr) : Except DecodeError Instr :=
  if operandsClear w then .ok i else .error .unusedField

/-- Decode, total on every 64-bit word (R97). -/
def decode (w : Word64) : Except DecodeError Instr :=
  if rsvField w ≠ 0 then .error .reservedBits
  else if opField w = 0x01 then .ok (.init (f1Field w) (f2Field w) (f3Field w) (f4Field w))
  else if opField w = 0x02 then
    if tailClear w then
      if (f1Field w).toNat ≤ 8 then .ok (.update (f1Field w)) else .error .countTooLarge
    else .error .unusedField
  else if opField w = 0x03 then
    if tailClear w then .ok (.digest (f1Field w)) else .error .unusedField
  else if opField w = 0x04 then bareCommand w .reset
  else if opField w = 0x05 then bareCommand w .clearKey
  else if opField w = 0x06 then bareCommand w .clearSalt
  else if opField w = 0x07 then bareCommand w .ackErr
  else .error .unknownOpcode

/-- A 64-bit word that holds `v`, zero-extended, from bit `lo` up, and 0 elsewhere (00_scope.md R8). -/
def placeField {n : Nat} (lo : Nat) (v : BitVec n) : Word64 := v.setWidth 64 <<< lo

/-- A command word put together from its fields, RSV = 0 (R91). -/
def packFields (op f1 f2 f3 f4 : Byte) : Word64 :=
  placeField 0 op ||| placeField 8 f1 ||| placeField 16 f2 ||| placeField 24 f3 ||| placeField 32 f4

/-- The command word of a command (R93); a field the command does not use is 0. -/
def encode : Instr → Word64
  | .init outLen keyLen saltLen persLen => packFields 0x01 outLen keyLen saltLen persLen
  | .update count => packFields 0x02 count 0 0 0
  | .digest offset => packFields 0x03 offset 0 0 0
  | .reset => packFields 0x04 0 0 0 0
  | .clearKey => packFields 0x05 0 0 0 0
  | .clearSalt => packFields 0x06 0 0 0 0
  | .ackErr => packFields 0x07 0 0 0 0

/-- The 64-bit command word whose low `nbits` bits are those of `w`, numbered as spec/opcode_table.json numbers them. A
command word has exactly 64 bits and no other length (R90). -/
def tableWord (nbits w : Nat) : Word64 := BitVec.ofNat 64 (w % 2 ^ nbits)

/-- What the decoder reads from an instruction whose bits are `w`. -/
def decodeTableWord (nbits w : Nat) : Option Instr := (decode (tableWord nbits w)).toOption

end Sys2Proof
end

