-- ==== Sys2Proof/Config.lean ====
section
/-! DEFINITION. The OPEN parameters of rule R7, arguments of the model with no value of their own. -/

namespace Sys2Proof

/-- Why the register interface refuses a host access (20_memory.md R63). It stands here because the platform's response
to a bus error is a parameter that may depend on it. -/
inductive BusError where
  /-- The access is not 8 bytes wide. -/
  | wrongSize
  /-- The offset is not a multiple of 8. -/
  | misaligned
  /-- The offset falls in 0x028..0x03F or 0x0A0..0x0BF. -/
  | reservedOffset
  /-- A read of CMD, KEYIN0..7, SALTIN0..1 or PERSIN0..1. -/
  | readOfWriteOnly
  /-- A write of STATUS, T_LO, T_HI or OUT0..7. -/
  | writeOfReadOnly
  deriving DecidableEq, Repr

/-- ENGINE_BASE (R7, R60; 92 D2): the bus address of offset 0x000 of each engine's window, OPEN. One address per
instance, since each has its own window (60_exceptions.md R262). -/
opaque Config.engineBase (k : Nat) : Nat

/-- N_ENGINES less one: the parameter is OPEN but at least 1 (R7; 92 D27). -/
opaque Config.extraEngines : Nat

/-- N_ENGINES (R7), at least 1. -/
def Config.nEngines : Nat := Config.extraEngines + 1

/-- BUS_ERROR_RESPONSE (R7, 20_memory.md R64): what the platform tells the host on a bus error, OPEN; nothing in the
engine depends on it. -/
opaque Config.busErrorResponse (e : BusError) : Word64

end Sys2Proof
end

