-- ==== Sys2Proof/Machine/State.lean ====
section
/-! DEFINITION. The engine's state (10_state.md), the host transactions it serves, its faults and its power-on state. -/

namespace Sys2Proof.Machine

/-- The error codes of STATUS.LASTERR (60_exceptions.md R250). Codes 5..7 are never produced (10_state.md R40), so they
have no constructor. -/
inductive ErrorCode where
  /-- Code 0: the command succeeded. -/
  | ok
  /-- Code 1: INIT with an operand it rejects. -/
  | invalidParameter
  /-- Code 2: a command in a state that does not allow it. -/
  | invalidState
  /-- Code 3: DIGEST whose output does not fit into OUT. -/
  | bufferTooSmall
  /-- Code 4: a word that matches no command. -/
  | illegalCommand
  deriving DecidableEq, Repr

/-- One host bus transaction addressed to the window (00_scope.md R11, R12; 30_encoding.md R98): a byte offset 0x000..0x0FF
of the window and a size in bytes. Accesses outside the window do not reach the engine (20_memory.md R63). -/
inductive Transaction where
  /-- `MemRead(offset, size)`. -/
  | read (offset : BitVec 8) (size : Nat)
  /-- `MemWrite(offset, size, value)`. -/
  | write (offset : BitVec 8) (size : Nat) (value : Word64)
  deriving DecidableEq, Repr

/-- Why the machine stops. -/
inductive Fault where
  /-- Raised by Bus.lean when the register interface refuses the access (20_memory.md R63); the run is then a faulted run
  (70_reset_and_hazards.md R289). SAFE: the spec calls a bus error a fault of the host program. -/
  | busError (e : BusError)
  deriving DecidableEq, Repr

/-- Why the model has no meaning for an instruction. -/
inductive Refusal where
  /-- Raised only by an arm of Dispatch.lean whose instruction has no meaning yet; no arm is one. SAFE. -/
  | notModelled (mnemonic : String)
  deriving DecidableEq, Repr

/-- Everything the spec gives one engine instance, and the two fields of its environment. -/
@[ext]
structure State where
  /-- `S.h[0..7]`, the chaining state (R23). -/
  h : Vector Word64 8
  /-- `S.t`, the byte counter (R24). -/
  t : Word128
  /-- `S.buffer[0..127]` (R25). -/
  buffer : Vector Byte 128
  /-- `S.bufferLength`, 0..128 (R26). -/
  bufferLength : Nat
  /-- `S.outputLength`, 0 while unconfigured, else 1..64 (R28). -/
  outputLength : Nat
  /-- `S.keyLength`, 0..64 (R29). -/
  keyLength : Nat
  /-- `S.key[0..63]` (R30). -/
  key : Vector Byte 64
  /-- `S.salt[0..15]` (R31). -/
  salt : Vector Byte 16
  /-- `S.personalization[0..15]` (R32). -/
  personalization : Vector Byte 16
  /-- `S.finalized` (R33). -/
  finalized : Bool
  /-- `S.configured` (R34). -/
  configured : Bool
  /-- `S.lastErr` (R35). -/
  lastErr : ErrorCode
  /-- `S.errSticky` (R35). -/
  errSticky : Bool
  /-- KEYIN0..KEYIN7 (R36). -/
  keyIn : Vector Word64 8
  /-- SALTIN0..SALTIN1 (R36). -/
  saltIn : Vector Word64 2
  /-- PERSIN0..PERSIN1 (R36). -/
  persIn : Vector Word64 2
  /-- DIN (R37). -/
  din : Word64
  /-- OUT0..OUT7 as the 64-byte digest output window (R38). -/
  out : Vector Byte 64
  /-- The MODEL's own: the host transactions the port has not yet accepted, in port order (R12, R289; log entry 1). -/
  pending : List Transaction
  /-- The MODEL's own: the values the host's reads returned, oldest first (R289; log entry 2). -/
  reads : List Word64
  deriving DecidableEq, Repr

/-- Power-on reset: every item at the value of 70_reset_and_hazards.md R280. The two environment fields are empty: the
engine starts no operation on its own (R280) and no read has returned a value. -/
def State.reset : State where
  h := Vector.replicate 8 0
  t := 0
  buffer := zeros 128
  bufferLength := 0
  outputLength := 0
  keyLength := 0
  key := zeros 64
  salt := zeros 16
  personalization := zeros 16
  finalized := false
  configured := false
  lastErr := .ok
  errSticky := false
  keyIn := Vector.replicate 8 0
  saltIn := Vector.replicate 2 0
  persIn := Vector.replicate 2 0
  din := 0
  out := zeros 64
  pending := []
  reads := []

end Sys2Proof.Machine
end

