-- ==== Sys2Proof/Machine/Flags.lean ====
section
/-! DEFINITION. What the host reads of the engine's status and counter: STATUS (10_state.md R40), T_LO and T_HI (R41),
and the error codes (60_exceptions.md R250). -/

namespace Sys2Proof.Machine

/-- The STATUS.LASTERR value of an error (R250). -/
def ErrorCode.code : ErrorCode → BitVec 3
  | .ok => 0
  | .invalidParameter => 1
  | .invalidState => 2
  | .bufferTooSmall => 3
  | .illegalCommand => 4

/-- STATUS: bit 0 CONFIGURED, 1 FINALIZED, 2 ERR_STICKY, [10:8] LASTERR, [23:16] BUFLEN, [31:24] OUTLEN, [39:32] KEYLEN;
the reserved bits [7:3], [15:11] and [63:40] read as 0 (R40). -/
def State.status (s : State) : Word64 :=
  placeField 0 (BitVec.ofBool s.configured) ||| placeField 1 (BitVec.ofBool s.finalized) |||
    placeField 2 (BitVec.ofBool s.errSticky) ||| placeField 8 s.lastErr.code |||
    placeField 16 (BitVec.ofNat 8 s.bufferLength) ||| placeField 24 (BitVec.ofNat 8 s.outputLength) |||
    placeField 32 (BitVec.ofNat 8 s.keyLength)

/-- T_LO = S.t[63:0] (R24, R41). -/
def tLow (t : Word128) : Word64 := t.extractLsb' 0 64

/-- T_HI = S.t[127:64] (R24, R41). -/
def tHigh (t : Word128) : Word64 := t.extractLsb' 64 64

end Sys2Proof.Machine
end

