-- ==== Sys2Proof/Machine/Operands.lean ====
section
/-! DEFINITION. Byte order (20_memory.md R65 to R70, 00_scope.md R10), the operands commands take from registers, and the
parameter block (40_initialization.md R121, R122). -/

namespace Sys2Proof.Machine

/-- Byte `j` of a register or word: its bits [8j+7:8j] (R65). -/
def byteLane (w : Word64) (j : Nat) : Byte := w.extractLsb' (8 * j) 8

/-- `LE64(B, 8i)`: the word whose byte `j` is `B[8i + j]` (R10, R66). -/
def le64 {m : Nat} (B : Vector Byte (8 * m)) (i : Fin m) : Word64 :=
  placeField 0 B[8 * i.val] ||| placeField 8 B[8 * i.val + 1] ||| placeField 16 B[8 * i.val + 2] |||
    placeField 24 B[8 * i.val + 3] ||| placeField 32 B[8 * i.val + 4] ||| placeField 40 B[8 * i.val + 5] |||
    placeField 48 B[8 * i.val + 6] ||| placeField 56 B[8 * i.val + 7]

/-- The words `LE64(B, 8i)` of a byte sequence, in order (R66). -/
def toWords (m : Nat) (B : Vector Byte (8 * m)) : Vector Word64 m := Vector.ofFn (le64 B)

/-- `LEBYTES(w[0]) ++ ... ++ LEBYTES(w[m-1])` (R10, R66). -/
def toBytes {m : Nat} (ws : Vector Word64 m) : Vector Byte (8 * m) :=
  Vector.ofFn fun k => byteLane (ws[k.val / 8]) (k.val % 8)

/-- `keyStage`, the key bytes as the host staged them (R67). -/
def State.keyStage (s : State) : Vector Byte 64 := toBytes s.keyIn

/-- `saltStage` (R68). -/
def State.saltStage (s : State) : Vector Byte 16 := toBytes s.saltIn

/-- `persStage` (R68). -/
def State.persStage (s : State) : Vector Byte 16 := toBytes s.persIn

/-- `LEBYTES(DIN)[0..n)`, the bytes UPDATE with COUNT = n absorbs, DIN[7:0] first (R69). -/
def State.dinBytes (s : State) (n : Nat) : List Byte := (List.range n).map (byteLane s.din)

/-- The first `n` bytes of a byte sequence, zeros after them. -/
def keepFirst {m : Nat} (n : Nat) (B : Vector Byte m) : Vector Byte m :=
  Vector.ofFn fun i => if i.val < n then B[i] else 0

/-- The key block `key[0..64) ++ zeros(64)` that Initialize absorbs (40_initialization.md R125). -/
def keyBlock (key : Vector Byte 64) : Vector Byte 128 := key ++ zeros 64

/-- The parameter block by byte index (R121): digest length, key length, fanout 1, depth 1, then leaf length, node offset,
node depth, inner hash length and the reserved bytes, all 0, then salt and personalization. -/
def State.paramBlock (s : State) : Vector Byte 64 :=
  Vector.ofFn fun i =>
    if i.val = 0 then BitVec.ofNat 8 s.outputLength
    else if i.val = 1 then BitVec.ofNat 8 s.keyLength
    else if i.val < 4 then 1
    else if i.val < 32 then 0
    else if h : i.val < 48 then s.salt[i.val - 32]
    else s.personalization[i.val - 48]

/-- The parameter block read as eight words, `P[i] = LE64(param, 8i)` (R122). -/
def State.paramWords (s : State) : Vector Word64 8 := toWords 8 s.paramBlock

end Sys2Proof.Machine
end

