-- ==== Sys2Proof/Machine/Compress.lean ====
section
/-! DEFINITION. The compression function, its mixer G and its sigma schedule (42_compression.md). No command invokes it by
itself; Absorb and DIGEST call it. The working vector lives only here (10_state.md R39). -/

namespace Sys2Proof.Machine

/-- `IV[0..7]` (R171). -/
def iv : Vector Word64 8 :=
  #v[0x6a09e667f3bcc908, 0xbb67ae8584caa73b, 0x3c6ef372fe94f82b, 0xa54ff53a5f1d36f1,
     0x510e527fade682d1, 0x9b05688c2b3e6c1f, 0x1f83d9abfb41bd6b, 0x5be0cd19137e2179]

/-- `SIGMA[r][k]` (R172). -/
def sigma : Vector (Vector (Fin 16) 16) 12 :=
  #v[#v[ 0,  1,  2,  3,  4,  5,  6,  7,  8,  9, 10, 11, 12, 13, 14, 15],
     #v[14, 10,  4,  8,  9, 15, 13,  6,  1, 12,  0,  2, 11,  7,  5,  3],
     #v[11,  8, 12,  0,  5,  2, 15, 13, 10, 14,  3,  6,  7,  1,  9,  4],
     #v[ 7,  9,  3,  1, 13, 12, 11, 14,  2,  6,  5, 10,  4,  0, 15,  8],
     #v[ 9,  0,  5,  7,  2,  4, 10, 15, 14,  1, 11, 12,  6,  8,  3, 13],
     #v[ 2, 12,  6, 10,  0, 11,  8,  3,  4, 13,  7,  5, 15, 14,  1,  9],
     #v[12,  5,  1, 15, 14, 13,  4, 10,  0,  7,  6,  3,  9,  2,  8, 11],
     #v[13, 11,  7, 14, 12,  1,  3,  9,  5,  0, 15,  4,  8,  6,  2, 10],
     #v[ 6, 15, 14,  9, 11,  3,  0,  8, 12,  2, 13,  7,  1,  4, 10,  5],
     #v[10,  2,  8,  4,  7,  6,  1,  5, 15, 11,  9, 14,  3, 12, 13,  0],
     #v[ 0,  1,  2,  3,  4,  5,  6,  7,  8,  9, 10, 11, 12, 13, 14, 15],
     #v[14, 10,  4,  8,  9, 15, 13,  6,  1, 12,  0,  2, 11,  7,  5,  3]]

/-- `rotr64(x, n)` for 0 < n < 64 (00_scope.md R9). -/
def rotr64 (x : Word64) (n : Nat) : Word64 := (x >>> n) ||| (x <<< (64 - n))

/-- Four statements of G, on `v[a]`, `v[d]`, `v[c]`, `v[b]` in this order, with one message word and two rotation amounts;
each line reads what the lines before it wrote (R175). -/
def mixHalf (a b c d : Fin 16) (x : Word64) (r1 r2 : Nat) (v : Vector Word64 16) : Vector Word64 16 :=
  let v := v.set a (v[a] + v[b] + x)
  let v := v.set d (rotr64 (v[d] ^^^ v[a]) r1)
  let v := v.set c (v[c] + v[d])
  v.set b (rotr64 (v[b] ^^^ v[c]) r2)

/-- The mixer `G(a, b, c, d, x, y)` on the working vector: its first four statements take `x` and rotate by 32 and 24, its
last four take `y` and rotate by 16 and 63 (R175). -/
def mixG (a b c d : Fin 16) (x y : Word64) (v : Vector Word64 16) : Vector Word64 16 :=
  mixHalf a b c d y 16 63 (mixHalf a b c d x 32 24 v)

/-- `Round(r)`: four column calls, then four diagonal calls, call `i` on `m[s[2i]]` and `m[s[2i+1]]` (R176). -/
def mixRound (m : Vector Word64 16) (v : Vector Word64 16) (r : Fin 12) : Vector Word64 16 :=
  let s := sigma[r]
  let v := mixG 0 4 8 12 m[s[0]] m[s[1]] v
  let v := mixG 1 5 9 13 m[s[2]] m[s[3]] v
  let v := mixG 2 6 10 14 m[s[4]] m[s[5]] v
  let v := mixG 3 7 11 15 m[s[6]] m[s[7]] v
  let v := mixG 0 5 10 15 m[s[8]] m[s[9]] v
  let v := mixG 1 6 11 12 m[s[10]] m[s[11]] v
  let v := mixG 2 7 8 13 m[s[12]] m[s[13]] v
  mixG 3 4 9 14 m[s[14]] m[s[15]] v

/-- The working vector before round 0: `h`, then IV with the counter and last-block tweaks (R174). -/
def workVector (h : Vector Word64 8) (t : Word128) (last : Bool) : Vector Word64 16 :=
  let v : Vector Word64 16 := h ++ iv
  let v := v.set 12 (v[12] ^^^ tLow t)
  let v := v.set 13 (v[13] ^^^ tHigh t)
  if last then v.set 14 (v[14] ^^^ 0xFFFFFFFFFFFFFFFF) else v

/-- The twelve rounds in order (R177). -/
def mixRounds (m : Vector Word64 16) (v : Vector Word64 16) : Vector Word64 16 := (List.finRange 12).foldl (mixRound m) v

/-- Feed-forward: `h'[i] = h[i] ^ v[i] ^ v[i+8]` (R178). -/
def feedForward (h : Vector Word64 8) (v : Vector Word64 16) : Vector Word64 8 :=
  Vector.ofFn fun i => h[i] ^^^ v[i.val] ^^^ v[i.val + 8]

/-- `Compress(h, block, t, last)` (R170, R173 to R178). Irreducible, so that no proof about the commands unfolds it by
accident. -/
@[irreducible]
def compress (h : Vector Word64 8) (block : Vector Byte 128) (t : Word128) (last : Bool) : Vector Word64 8 :=
  feedForward h (mixRounds (toWords 16 block) (workVector h t last))

end Sys2Proof.Machine
end

