-- ==== Sys2Proof/Machine/Ops.lean ====
section
/-! DEFINITION. The shared operations of the commands: recording an error (60_exceptions.md R251) and acknowledging it
(R256), the counter (41_update.md R151), Absorb (R150) and Initialize (40_initialization.md R123 to R125). -/

namespace Sys2Proof.Machine

/-- `raise E`: the "trap entry" of this hardware. LASTERR takes the code, ERR_STICKY is set, nothing else changes
(R251, R252). -/
def State.raiseError (e : ErrorCode) (s : State) : State := { s with lastErr := e, errSticky := true }

/-- A command that completes without error sets LASTERR to 0 and leaves ERR_STICKY (R251). -/
def State.succeed (s : State) : State := { s with lastErr := .ok }

/-- What stands in the place of a return from the trap: both error fields are cleared (R256, R223). -/
def State.acknowledge (s : State) : State := { s with errSticky := false, lastErr := .ok }

/-- `Add128(n)`: addition modulo 2^128 on the counter (R151). -/
def add128 (t : Word128) (n : Nat) : Word128 := t + BitVec.ofNat 128 n

/-- The non-final compression of a full buffer: count the block, compress it, clear the buffer (R150, R151). -/
def State.compressFull (s : State) : State :=
  { s with
    t := add128 s.t 128
    h := compress s.h s.buffer (add128 s.t 128) false
    buffer := zeros 128
    bufferLength := 0 }

/-- Place one byte at the end of the buffer (R150). -/
def State.placeByte (s : State) (b : Byte) : State :=
  { s with buffer := s.buffer.setIfInBounds s.bufferLength b, bufferLength := s.bufferLength + 1 }

/-- One turn of Absorb's loop: a full buffer is compressed only now that one more byte must be placed (R150, R154). -/
def State.absorbByte (s : State) (b : Byte) : State :=
  if s.bufferLength = 128 then s.compressFull.placeByte b else s.placeByte b

/-- `Absorb(B)` (R150). -/
def State.absorb (s : State) (bytes : List Byte) : State := bytes.foldl State.absorbByte s

/-- The first two statements of Initialize: the chaining state from IV and parameter block (R123), an empty stream (R124). -/
def State.startStream (s : State) : State :=
  { s with
    h := Vector.ofFn fun i => iv[i] ^^^ s.paramWords[i]
    t := 0
    buffer := zeros 128
    bufferLength := 0
    finalized := false }

/-- `Initialize()`: start the stream, then absorb the key block when there is a key (R123 to R125). -/
def State.runInitialize (s : State) : State :=
  if s.keyLength > 0 then s.startStream.absorb (keyBlock s.key).toList else s.startStream

end Sys2Proof.Machine
end

