-- ==== Sys2Proof/Machine/Finalization.lean ====
section
/-! DEFINITION. DIGEST (43_finalization.md R200 to R204). -/

namespace Sys2Proof.Machine

/-- The final compression: zero padding, the counter increased by the real bytes, the last-block flag set (R201). -/
def State.compressFinal (s : State) : State :=
  { s with
    t := add128 s.t s.bufferLength
    h := compress s.h (keepFirst s.bufferLength s.buffer) (add128 s.t s.bufferLength) true }

/-- `OUT[OFFSET + k] <- D[k]` for k < outputLength; other OUT bytes keep their values (R202, 10_state.md R38). -/
def spliceOut (offset len : Nat) (digest old : Vector Byte 64) : Vector Byte 64 :=
  Vector.ofFn fun k => if offset ≤ k.val ∧ k.val < offset + len then digest[k.val - offset] else old[k]

/-- The first `outputLength` bytes of `D = LEBYTES(h[0]) ++ ... ++ LEBYTES(h[7])` into OUT from byte OFFSET (R202). -/
def State.writeOut (offset : Nat) (s : State) : State :=
  { s with out := spliceOut offset s.outputLength (toBytes s.h) s.out }

/-- The flag and the emptied buffer DIGEST leaves (R203, R204). -/
def State.closeStream (s : State) : State := { s with finalized := true, buffer := zeros 128, bufferLength := 0 }

/-- DIGEST (R200): INVALID_STATE is checked before BUFFER_TOO_SMALL (60_exceptions.md R253). -/
def execDigest (offset : Byte) (s : State) : Host.Outcome State Fault Refusal :=
  if s.configured = false ∨ s.finalized = true then .next (s.raiseError .invalidState)
  else if offset.toNat + s.outputLength > 64 then .next (s.raiseError .bufferTooSmall)
  else .next (s.compressFinal.writeOut offset.toNat).closeStream.succeed

end Sys2Proof.Machine
end

