-- ==== Sys2Proof/Machine/Initialization.lean ====
section
/-! DEFINITION. INIT (40_initialization.md R120, R126). -/

namespace Sys2Proof.Machine

/-- The operands INIT accepts: OUTLEN in 1..64, KEYLEN at most 64, SALTLEN and PERSLEN 0 or 16 (R120). -/
def initAccepts (outLen keyLen saltLen persLen : Byte) : Bool :=
  decide (1 ≤ outLen.toNat) && decide (outLen.toNat ≤ 64) && decide (keyLen.toNat ≤ 64) &&
    (saltLen == 0 || saltLen == 16) && (persLen == 0 || persLen == 16)

/-- INIT's writes before Initialize: key, salt and personalization from staging, the twelve staging registers to 0, the
lengths, CONFIGURED (R120, R126). -/
def State.configure (outLen keyLen saltLen persLen : Byte) (s : State) : State :=
  { s with
    key := keepFirst keyLen.toNat s.keyStage
    salt := if saltLen = 16 then s.saltStage else zeros 16
    personalization := if persLen = 16 then s.persStage else zeros 16
    keyIn := Vector.replicate 8 0
    saltIn := Vector.replicate 2 0
    persIn := Vector.replicate 2 0
    outputLength := outLen.toNat
    keyLength := keyLen.toNat
    configured := true }

/-- INIT (R120): legal in every state; an operand it rejects is INVALID_PARAMETER. -/
def execInit (outLen keyLen saltLen persLen : Byte) (s : State) : Host.Outcome State Fault Refusal :=
  if initAccepts outLen keyLen saltLen persLen then
    .next (s.configure outLen keyLen saltLen persLen).runInitialize.succeed
  else .next (s.raiseError .invalidParameter)

end Sys2Proof.Machine
end

