-- ==== Sys2Proof/Machine/Teardown.lean ====
section
/-! DEFINITION. RESET, CLEAR_KEY, CLEAR_SALT and ACK_ERR (44_teardown_and_status.md R220 to R223). -/

namespace Sys2Proof.Machine

/-- RESET's zeroing of chaining state, counter and buffer before Initialize, kept because the document states it (R220). -/
def State.wipeStream (s : State) : State :=
  { s with h := Vector.replicate 8 0, t := 0, buffer := zeros 128, bufferLength := 0 }

/-- RESET (R220). -/
def execReset (s : State) : Host.Outcome State Fault Refusal :=
  if s.configured = false then .next (s.raiseError .invalidState)
  else .next s.wipeStream.runInitialize.succeed

/-- CLEAR_KEY's writes: the key, and the buffer while it still holds the key block (R221). -/
def State.eraseKey (s : State) : State :=
  { s with
    key := zeros 64
    buffer := if s.keyLength > 0 ∧ s.t = 0 then zeros 128 else s.buffer }

/-- CLEAR_KEY (R221). -/
def execClearKey (s : State) : Host.Outcome State Fault Refusal :=
  if s.configured = false then .next (s.raiseError .invalidState)
  else .next s.eraseKey.succeed

/-- CLEAR_SALT's write: the stored salt only; the salt already in the chaining state stays there (R222). -/
def State.eraseSalt (s : State) : State := { s with salt := zeros 16 }

/-- CLEAR_SALT (R222). -/
def execClearSalt (s : State) : Host.Outcome State Fault Refusal :=
  if s.configured = false then .next (s.raiseError .invalidState)
  else .next s.eraseSalt.succeed

/-- ACK_ERR (R223): legal in every state. -/
def execAckErr (s : State) : Host.Outcome State Fault Refusal := .next s.acknowledge

end Sys2Proof.Machine
end

