-- ==== Sys2Proof/Machine/Update.lean ====
section
/-! DEFINITION. UPDATE (41_update.md R152). -/

namespace Sys2Proof.Machine

/-- UPDATE (R152): absorbs `LEBYTES(DIN)[0..COUNT)`. COUNT > 8 is an illegal command whatever the state (30_encoding.md R95,
60_exceptions.md R253); the decoder refuses such a word, so the first case only makes the meaning total. -/
def execUpdate (count : Byte) (s : State) : Host.Outcome State Fault Refusal :=
  if count.toNat > 8 then .next (s.raiseError .illegalCommand)
  else if s.configured = false ∨ s.finalized = true then .next (s.raiseError .invalidState)
  else .next (s.absorb (s.dinBytes count.toNat)).succeed

end Sys2Proof.Machine
end

