-- ==== Sys2Proof/Machine/Dispatch.lean ====
section
/-! DEFINITION. One arm per command, each one call of its meaning. -/

namespace Sys2Proof.Machine

/-- What a command does to the engine (30_encoding.md R93). -/
def exec (i : Instr) (s : State) : Host.Outcome State Fault Refusal :=
  match i with
  | .init outLen keyLen saltLen persLen => Sys2Proof.Machine.execInit outLen keyLen saltLen persLen s
  | .update count => Sys2Proof.Machine.execUpdate count s
  | .digest offset => Sys2Proof.Machine.execDigest offset s
  | .reset => Sys2Proof.Machine.execReset s
  | .clearKey => Sys2Proof.Machine.execClearKey s
  | .clearSalt => Sys2Proof.Machine.execClearSalt s
  | .ackErr => Sys2Proof.Machine.execAckErr s

end Sys2Proof.Machine
end

