-- ==== Sys2Proof/Machine/Bus.lean ====
section
/-! DEFINITION. The host register interface (20_memory.md R60 to R74): the register map, the refused accesses, reads, writes
and the execution of a command word. -/

namespace Sys2Proof.Machine

/-- The registers of the window (R61). -/
inductive Reg where
  | cmd
  | status
  | din
  | tLo
  | tHi
  | keyIn (k : Fin 8)
  | saltIn (k : Fin 2)
  | persIn (k : Fin 2)
  | out (k : Fin 8)
  deriving DecidableEq, Repr

/-- The register map of R61, by 8-byte slot (offset div 8): slots 5..7 (0x028..0x03F) and 20..23 (0x0A0..0x0BF) are
reserved. -/
def regOfSlot (slot : Nat) : Option Reg :=
  if slot = 0 then some .cmd
  else if slot = 1 then some .status
  else if slot = 2 then some .din
  else if slot = 3 then some .tLo
  else if slot = 4 then some .tHi
  else if slot < 8 then none
  else if h : slot - 8 < 8 then some (.keyIn ⟨slot - 8, h⟩)
  else if h : slot - 16 < 2 then some (.saltIn ⟨slot - 16, h⟩)
  else if h : slot - 18 < 2 then some (.persIn ⟨slot - 18, h⟩)
  else if slot < 24 then none
  else if h : slot - 24 < 8 then some (.out ⟨slot - 24, h⟩)
  else none

/-- The register an access names: it must be 8 bytes wide, aligned, and outside the reserved ranges (R62, R63). -/
def selectReg (offset : BitVec 8) (size : Nat) : Except BusError Reg :=
  if size ≠ 8 then .error .wrongSize
  else if offset.toNat % 8 ≠ 0 then .error .misaligned
  else
    match regOfSlot (offset.toNat / 8) with
    | none => .error .reservedOffset
    | some r => .ok r

/-- The value a read of a register returns; CMD and the staging registers are write-only (R46, R63, R70). -/
def readReg (s : State) : Reg → Except BusError Word64
  | .cmd => .error .readOfWriteOnly
  | .status => .ok s.status
  | .din => .ok s.din
  | .tLo => .ok (tLow s.t)
  | .tHi => .ok (tHigh s.t)
  | .keyIn _ => .error .readOfWriteOnly
  | .saltIn _ => .error .readOfWriteOnly
  | .persIn _ => .error .readOfWriteOnly
  | .out k => .ok (toWords 8 s.out)[k]

/-- A word written to CMD: a legal one is executed (R42, R72), any other only raises ILLEGAL_COMMAND (30_encoding.md R95). -/
def runCommand (w : Word64) (s : State) : Host.Outcome State Fault Refusal :=
  match decode w with
  | .ok i => exec i s
  | .error _ => .next (s.raiseError .illegalCommand)

/-- What a write of a register does (R36, R37, R42); STATUS, T_LO, T_HI and OUT are read-only (R63). -/
def writeReg (s : State) (v : Word64) : Reg → Host.Outcome State Fault Refusal
  | .cmd => runCommand v s
  | .status => .fault (.busError .writeOfReadOnly)
  | .din => .next { s with din := v }
  | .tLo => .fault (.busError .writeOfReadOnly)
  | .tHi => .fault (.busError .writeOfReadOnly)
  | .keyIn k => .next { s with keyIn := s.keyIn.set k v }
  | .saltIn k => .next { s with saltIn := s.saltIn.set k v }
  | .persIn k => .next { s with persIn := s.persIn.set k v }
  | .out _ => .fault (.busError .writeOfReadOnly)

/-- The value `MemRead(offset, size)` returns, or the bus error that refuses it (R62, R63). -/
def busRead (s : State) (offset : BitVec 8) (size : Nat) : Except BusError Word64 :=
  match selectReg offset size with
  | .error e => .error e
  | .ok r => readReg s r

/-- What `MemWrite(offset, size, v)` does (R62, R63). -/
def busWrite (s : State) (offset : BitVec 8) (size : Nat) (v : Word64) : Host.Outcome State Fault Refusal :=
  match selectReg offset size with
  | .error e => .fault (.busError e)
  | .ok r => writeReg s v r

/-- One host access as one indivisible step (R72). A read only returns its value (R73); a refused access is a fault of the
host program (R64). -/
def access (x : Transaction) (s : State) : Host.Outcome State Fault Refusal :=
  match x with
  | .read offset size =>
    match busRead s offset size with
    | .ok v => .next { s with reads := s.reads ++ [v] }
    | .error e => .fault (.busError e)
  | .write offset size v => busWrite s offset size v

/-- The port accepts the next transaction in order (R74); with none pending the engine is idle and holds all of its state
(60_exceptions.md R265). -/
def serve (s : State) : Host.Outcome State Fault Refusal :=
  match s.pending with
  | [] => .next s
  | x :: rest => access x { s with pending := rest }

/-- The host is about to write this command word to CMD: it heads the transactions the port will accept. -/
def placeCommand (s : State) (w : Word64) : State := { s with pending := .write 0x00 8 w :: s.pending }

end Sys2Proof.Machine
end

