-- ==== Sys2Proof/Machine/HostProgram.lean ====
section
/-! DEFINITION. The host's side of the interface: the transactions of 30_encoding.md R98 and the pseudo-instructions of R99,
each with its expansion. The engine sees only the expansion; step never uses these names. -/

namespace Sys2Proof.Machine

/-- `WR <reg>, <value>`: `MemWrite(offset, 8, value)` (R98). -/
def wr (offset : BitVec 8) (v : Word64) : Transaction := .write offset 8 v

/-- `RD <reg>`: `MemRead(offset, 8)` (R98). -/
def rd (offset : BitVec 8) : Transaction := .read offset 8

/-- A command line: `WR CMD, <word>` with the word of its row (R98). -/
def command (i : Instr) : Transaction := wr 0x00 (encode i)

/-- `LE64(C ++ zeros(8 - n), 0)`, the word whose low bytes are the at most 8 bytes of `C` (R99). -/
def packBytes (c : List Byte) : Word64 := le64 (m := 1) (Vector.ofFn fun j => c.getD j.val 0) 0

/-- The `i`-th 8-byte chunk of a byte string, the last one shorter (R99). -/
def chunk8 (bytes : List Byte) (i : Nat) : List Byte := (bytes.drop (8 * i)).take 8

/-- Writes of consecutive registers from `base`, register `k` taking `LE64(bytes ++ zeros, 8k)` (R99). -/
def loadWords (base n : Nat) (bytes : List Byte) : List Transaction :=
  (List.range n).map fun k => wr (BitVec.ofNat 8 (base + 8 * k)) (packBytes (chunk8 bytes k))

/-- `LOADKEY <hex bytes, 0..64>` (R99). -/
def loadKey (bytes : List Byte) : List Transaction := loadWords 0x40 8 bytes

/-- `LOADSALT <16 hex bytes>` (R99). -/
def loadSalt (bytes : List Byte) : List Transaction := loadWords 0x80 2 bytes

/-- `LOADPERS <16 hex bytes>` (R99). -/
def loadPers (bytes : List Byte) : List Transaction := loadWords 0x90 2 bytes

/-- `WR DIN, LE64(C ++ zeros(8 - n), 0)` and `UPDATE n` for one chunk of `n` bytes (R99). -/
def absorbChunk (c : List Byte) : List Transaction :=
  [wr 0x10 (packBytes c), command (.update (BitVec.ofNat 8 c.length))]

/-- `ABSORB <byte string M>`; an empty `M` expands to nothing (R99). -/
def absorbMessage (message : List Byte) : List Transaction :=
  (List.range ((message.length + 7) / 8)).flatMap fun i => absorbChunk (chunk8 message i)

/-- `READOUT` (R99). -/
def readOut : List Transaction := (List.range 8).map fun k => rd (BitVec.ofNat 8 (0xC0 + 8 * k))

/-- `HASH outlen, <key K>, <message M>` (R99). -/
def hashMessage (outLen : Byte) (key message : List Byte) : List Transaction :=
  loadKey key ++ [command (.init outLen (BitVec.ofNat 8 key.length) 0 0)] ++ absorbMessage message ++
    [command (.digest 0)] ++ readOut

end Sys2Proof.Machine
end

