-- ==== Sys2Proof/Machine/Platform.lean ====
section
/-! DEFINITION. The platform around the engines, as far as the spec gives it: N_ENGINES instances with a window each
(60_exceptions.md R262), ENGINE_BASE and BUS_ERROR_RESPONSE (00_scope.md R7). -/

namespace Sys2Proof.Machine

/-- The engine instances of a platform; each holds its own copy of every item of state and they share none (R262). -/
structure Platform where
  engines : List State
  deriving DecidableEq, Repr

/-- What a host gets back from an access that reaches an engine. -/
inductive Response where
  /-- The value of a read. -/
  | data (v : Word64)
  /-- A write was accepted. -/
  | done
  /-- The platform's BUS_ERROR_RESPONSE (20_memory.md R64). -/
  | busError (r : Word64)
  deriving DecidableEq, Repr

/-- N_ENGINES instances after power-on reset (70_reset_and_hazards.md R280); there is no other start-up protocol (R262). -/
def Platform.powerOn : Platform where
  engines := List.replicate Config.nEngines State.reset

/-- Whether a bus address falls in instance `k`'s 256-byte window (R60). -/
def inWindow (addr k : Nat) : Bool := decide (Config.engineBase k ≤ addr) && decide (addr < Config.engineBase k + 256)

/-- The instance a bus address reaches; an address in no window does not reach an engine (R63). -/
def Platform.route (p : Platform) (addr : Nat) : Option Nat := (List.range p.engines.length).find? (inWindow addr)

/-- The offset of a bus address in instance `k`'s window (R60). -/
def windowOffset (addr k : Nat) : BitVec 8 := BitVec.ofNat 8 (addr - Config.engineBase k)

/-- A host read at a bus address; none where no engine is reached, which is the platform's business (R63). -/
def Platform.read (p : Platform) (addr size : Nat) : Option (Platform × Response) :=
  match p.route addr with
  | none => none
  | some k =>
    match p.engines[k]? with
    | none => none
    | some s =>
      match busRead s (windowOffset addr k) size with
      | .ok v => some (p, .data v)
      | .error e => some (p, .busError (Config.busErrorResponse e))

/-- A host write at a bus address. A bus error changes no engine state (R64). -/
def Platform.write (p : Platform) (addr size : Nat) (v : Word64) : Option (Platform × Response) :=
  match p.route addr with
  | none => none
  | some k =>
    match p.engines[k]? with
    | none => none
    | some s =>
      match busWrite s (windowOffset addr k) size v with
      | .next s' => some ({ engines := p.engines.set k s' }, .done)
      | .fault (.busError e) => some (p, .busError (Config.busErrorResponse e))
      | .refused _ => none

end Sys2Proof.Machine
end

