-- ==== Sys2Proof/Safety.lean ====
section
/-! DEFINITION. The terms claims use: the invariants of 10_state.md section 4, and BLAKE2b as a function of the whole
message, against which the streaming engine is measured. -/

namespace Sys2Proof.Machine

/-- What holds between commands (10_state.md R26 to R30, R33 to R35, R44; 43_finalization.md R203). -/
structure State.Inv (s : State) : Prop where
  /-- R26. -/
  bufferLength_le : s.bufferLength ≤ 128
  /-- R27. -/
  buffer_tail : ∀ i : Fin 128, s.bufferLength ≤ i.val → s.buffer[i] = 0
  /-- R28. -/
  outputLength_le : s.outputLength ≤ 64
  /-- R28: 0 only while the engine is unconfigured. -/
  outputLength_pos : s.configured = true → 1 ≤ s.outputLength
  /-- R29. -/
  keyLength_le : s.keyLength ≤ 64
  /-- R30. -/
  key_tail : ∀ i : Fin 64, s.keyLength ≤ i.val → s.key[i] = 0
  /-- R33, R34: a digest needs a configured engine. -/
  finalized_configured : s.finalized = true → s.configured = true
  /-- R203. -/
  finalized_empty : s.finalized = true → s.bufferLength = 0
  /-- R44. -/
  counter_blocks : s.configured = true → s.finalized = false → s.t.toNat % 128 = 0
  /-- R44: with a key block absorbed the buffer of an open stream is never empty. -/
  keyed_nonempty : s.configured = true → s.finalized = false → 0 < s.keyLength → 0 < s.bufferLength
  /-- R35, R251: an error code never stands without the sticky bit. -/
  error_sticky : s.lastErr ≠ .ok → s.errSticky = true
  /-- R34, R252, R280: an unconfigured engine still holds its power-on stream and configuration. -/
  unconfigured_blank : s.configured = false →
    s.h = Vector.replicate 8 0 ∧ s.t = 0 ∧ s.bufferLength = 0 ∧ s.outputLength = 0 ∧ s.keyLength = 0 ∧
      s.key = zeros 64 ∧ s.salt = zeros 16 ∧ s.personalization = zeros 16 ∧ s.out = zeros 64

/-- The first sentence of R45: while the counter of an open keyed stream is 0, the buffer holds the uncompressed key block. -/
def State.HoldsKeyBlock (s : State) : Prop :=
  s.configured = true → s.finalized = false → 0 < s.keyLength → s.t = 0 →
    s.bufferLength = 128 ∧ s.buffer = keyBlock s.key

/-- At most 128 bytes as a block, zero-padded (43_finalization.md R201). -/
def padBlock (bytes : List Byte) : Vector Byte 128 := Vector.ofFn fun i => bytes.getD i.val 0

/-- How many compressions a stream of `n` bytes takes, `max(1, ceil(n / 128))` (41_update.md R155). -/
def blockCount (n : Nat) : Nat := max 1 ((n + 127) / 128)

/-- The chaining state after the first `k` blocks of `data`, all non-final, block `i` with counter 128(i+1) (R150, R151). -/
def chainBlocks (h : Vector Word64 8) (data : List Byte) (k : Nat) : Vector Word64 8 :=
  (List.range k).foldl
    (fun h i => compress h (padBlock (data.drop (128 * i))) (BitVec.ofNat 128 (128 * (i + 1))) false) h

/-- The final chaining state of a whole stream: the last block with the flag set and the counter at the stream's length. -/
def hashStream (h : Vector Word64 8) (data : List Byte) : Vector Word64 8 :=
  compress (chainBlocks h data (blockCount data.length - 1))
    (padBlock (data.drop (128 * (blockCount data.length - 1)))) (BitVec.ofNat 128 data.length) true

/-- The chaining state a stream starts from, with the parameter words as R122 writes them. -/
def startChain (outLen keyLen : Nat) (salt pers : Vector Word64 2) : Vector Word64 8 :=
  #v[iv[0] ^^^ (0x01010000 ||| (BitVec.ofNat 64 keyLen <<< 8) ||| BitVec.ofNat 64 outLen), iv[1], iv[2], iv[3],
     iv[4] ^^^ salt[0], iv[5] ^^^ salt[1], iv[6] ^^^ pers[0], iv[7] ^^^ pers[1]]

/-- The bytes a stream absorbs: the key block when there is a key, then the message (40_initialization.md R125). -/
def streamBytes (key : List Byte) (message : List Byte) : List Byte :=
  if key = [] then message else (padBlock key).toList ++ message

/-- BLAKE2b of a whole message: the 64 bytes `D` of R202, of which the digest is the first `outLen`. -/
def blake2bBytes (outLen : Nat) (key : List Byte) (salt pers : Vector Word64 2) (message : List Byte) : Vector Byte 64 :=
  toBytes (hashStream (startChain outLen key.length salt pers) (streamBytes key message))

end Sys2Proof.Machine
end

