-- ==== Sys2Proof/Certificates/Slice0/Obligations.lean ====
section
/-! DEFINITION. The statements for the provers, each formalising rules of spec/; OBLIGATIONS.json lists them. -/

open Sys2Proof Sys2Proof.Machine

/-! ## Encoding -/

/-- 30_encoding.md R98 and the command words of 95_test_vectors.md: known words decode to what they stand for, and one word
for each disjunct of R95 is refused by name. -/
def Obligations.KnownWordsDecode : Prop :=
  decode 0x0000000000004001 = .ok (.init 64 0 0 0) ∧
  decode 0x0000001010042001 = .ok (.init 32 4 16 16) ∧
  decode 0x0000000000000502 = .ok (.update 5) ∧
  decode 0x0000000000002003 = .ok (.digest 32) ∧
  decode 0x0000000000000004 = .ok .reset ∧
  decode 0x0000000000000005 = .ok .clearKey ∧
  decode 0x0000000000000006 = .ok .clearSalt ∧
  decode 0x0000000000000007 = .ok .ackErr ∧
  decode 0x0000000000000000 = .error .unknownOpcode ∧
  decode 0x0000000000000104 = .error .unusedField ∧
  decode 0x0000010000004001 = .error .reservedBits ∧
  decode 0x0000000000000902 = .error .countTooLarge

/-- R97 against R91 and R93: decoding the word of a well-formed command gives the command back, for every operand. -/
def Obligations.DecodeOfEncodeIsIdentity : Prop :=
  ∀ i : Instr, i.wellFormed = true → decode (encode i) = .ok i

/-- R97 against R91 and R93, the other way: a word that decodes is the word of a well-formed command. -/
def Obligations.DecodedWordEncodesBack : Prop :=
  ∀ (w : Word64) (i : Instr), decode w = .ok i → i.wellFormed = true ∧ encode i = w

/-- R94: match and mask of every row, with UPDATE's extra condition; a word decodes to a row's command exactly when it
matches that row, so at most one row matches any word. -/
def Obligations.DecodeFollowsMatchMaskTable : Prop :=
  ∀ w : Word64,
    ((∃ a b c d, decode w = .ok (.init a b c d)) ↔ w &&& 0xFFFFFF00000000FF = 0x0000000000000001) ∧
    ((∃ n, decode w = .ok (.update n)) ↔
      w &&& 0xFFFFFFFFFFFF00FF = 0x0000000000000002 ∧ (w.extractLsb' 8 8).toNat ≤ 8) ∧
    ((∃ o, decode w = .ok (.digest o)) ↔ w &&& 0xFFFFFFFFFFFF00FF = 0x0000000000000003) ∧
    (decode w = .ok .reset ↔ w &&& 0xFFFFFFFFFFFFFFFF = 0x0000000000000004) ∧
    (decode w = .ok .clearKey ↔ w &&& 0xFFFFFFFFFFFFFFFF = 0x0000000000000005) ∧
    (decode w = .ok .clearSalt ↔ w &&& 0xFFFFFFFFFFFFFFFF = 0x0000000000000006) ∧
    (decode w = .ok .ackErr ↔ w &&& 0xFFFFFFFFFFFFFFFF = 0x0000000000000007)

/-- R95: which words are illegal, and that an illegal command does nothing but raise ILLEGAL_COMMAND (code 4). -/
def Obligations.IllegalWordOnlyRaises : Prop :=
  ErrorCode.illegalCommand.code = 4 ∧
  ∀ (w : Word64) (s : State),
    ((∃ e, decode w = .error e) ↔
      w.extractLsb' 40 24 ≠ 0 ∨ (w.extractLsb' 0 8).toNat = 0 ∨ 8 ≤ (w.extractLsb' 0 8).toNat ∨
      ((w.extractLsb' 0 8 = 2 ∨ w.extractLsb' 0 8 = 3) ∧ w.extractLsb' 16 24 ≠ 0) ∨
      (4 ≤ (w.extractLsb' 0 8).toNat ∧ (w.extractLsb' 0 8).toNat ≤ 7 ∧ w.extractLsb' 8 32 ≠ 0) ∨
      (w.extractLsb' 0 8 = 2 ∧ 8 < (w.extractLsb' 8 8).toNat)) ∧
    ((∃ e, decode w = .error e) →
      runCommand w s = .next { s with lastErr := .illegalCommand, errSticky := true })

/-- 10_state.md R42, 20_memory.md R72: a step whose transaction writes a legal word to CMD executes that command; the
transaction is taken off the host's list (the model's own, log entry 1) and the step does nothing else. The same for the
word withFetchWord places (log entry 7). -/
def Obligations.StepRunsDecodedCommand : Prop :=
  (∀ (s : State) (w : Word64) (i : Instr) (rest : List Transaction),
    s.pending = .write 0x00 8 w :: rest → decode w = .ok i → step s = exec i { s with pending := rest }) ∧
  (∀ (i : Instr) (s : State) (n : Nat), decode (tableWord 64 n) = .ok i → step (s.withFetchWord 64 n) = exec i s)

/-! ## The register interface -/

/-- 20_memory.md R63: exactly these accesses are refused with a bus error, and an access outside every window reaches no
engine. -/
def Obligations.BusErrorsExactly : Prop :=
  (∀ (s : State) (offset : BitVec 8) (size : Nat) (rest : List Transaction), s.pending = .read offset size :: rest →
    ((∃ e, step s = .fault (.busError e)) ↔
      size ≠ 8 ∨ offset.toNat % 8 ≠ 0 ∨ (0x028 ≤ offset.toNat ∧ offset.toNat ≤ 0x03F) ∨
      (0x0A0 ≤ offset.toNat ∧ offset.toNat ≤ 0x0BF) ∨
      offset.toNat = 0x000 ∨ (0x040 ≤ offset.toNat ∧ offset.toNat ≤ 0x09F))) ∧
  (∀ (s : State) (offset : BitVec 8) (size : Nat) (v : Word64) (rest : List Transaction),
    s.pending = .write offset size v :: rest →
    ((∃ e, step s = .fault (.busError e)) ↔
      size ≠ 8 ∨ offset.toNat % 8 ≠ 0 ∨ (0x028 ≤ offset.toNat ∧ offset.toNat ≤ 0x03F) ∨
      (0x0A0 ≤ offset.toNat ∧ offset.toNat ≤ 0x0BF) ∨
      offset.toNat = 0x008 ∨ offset.toNat = 0x018 ∨ offset.toNat = 0x020 ∨ 0x0C0 ≤ offset.toNat)) ∧
  (∀ (p : Platform) (addr size : Nat) (v : Word64),
    (∀ k, k < p.engines.length → ¬ (Config.engineBase k ≤ addr ∧ addr < Config.engineBase k + 256)) →
    p.read addr size = none ∧ p.write addr size v = none)

/-- R64: on a bus error every engine of the platform is as before, and the host gets the platform's BUS_ERROR_RESPONSE. The
form of that response is the model's choice (log entry 6). -/
def Obligations.BusErrorLeavesEnginesAlone : Prop :=
  ∀ (p : Platform) (addr size k : Nat) (s : State) (e : BusError),
    p.route addr = some k → p.engines[k]? = some s →
    (busRead s (windowOffset addr k) size = .error e →
      p.read addr size = some (p, .busError (Config.busErrorResponse e))) ∧
    (∀ v : Word64, busWrite s (windowOffset addr k) size v = .fault (.busError e) →
      p.write addr size v = some (p, .busError (Config.busErrorResponse e)))

/-- 60_exceptions.md R262: an access to one instance changes no other (which instance an address reaches: log entry 6). -/
def Obligations.InstancesShareNoState : Prop :=
  ∀ (p q : Platform) (addr size k : Nat) (v : Word64) (r : Response),
    p.route addr = some k →
    (p.write addr size v = some (q, r) →
      q.engines.length = p.engines.length ∧ ∀ j, j ≠ k → q.engines[j]? = p.engines[j]?) ∧
    (p.read addr size = some (q, r) → q = p)

/-- 10_state.md R40: the layout of STATUS as a read returns it, reserved bits 0, no side effect, not writable. -/
def Obligations.StatusReadLayout : Prop :=
  State.reset.status = 0 ∧
  (ErrorCode.ok.code = 0 ∧ ErrorCode.invalidParameter.code = 1 ∧ ErrorCode.invalidState.code = 2 ∧
    ErrorCode.bufferTooSmall.code = 3 ∧ ErrorCode.illegalCommand.code = 4) ∧
  (∀ (s : State) (rest : List Transaction),
    s.pending = .read 0x008 8 :: rest → s.bufferLength ≤ 128 → s.outputLength ≤ 64 → s.keyLength ≤ 64 →
    ∃ w : Word64, step s = .next { s with pending := rest, reads := s.reads ++ [w] } ∧
      w.getLsbD 0 = s.configured ∧ w.getLsbD 1 = s.finalized ∧ w.getLsbD 2 = s.errSticky ∧
      w.extractLsb' 3 5 = 0 ∧ w.extractLsb' 8 3 = s.lastErr.code ∧ w.extractLsb' 11 5 = 0 ∧
      (w.extractLsb' 16 8).toNat = s.bufferLength ∧ (w.extractLsb' 24 8).toNat = s.outputLength ∧
      (w.extractLsb' 32 8).toNat = s.keyLength ∧ w.extractLsb' 40 24 = 0) ∧
  (∀ (s : State) (v : Word64) (rest : List Transaction),
    s.pending = .write 0x008 8 v :: rest → ∃ e, step s = .fault (.busError e))

/-- R41: T_LO and T_HI read as the halves of the counter, 0 after power-on, no side effect, not writable. -/
def Obligations.CounterHalvesRead : Prop :=
  (∀ (s : State) (rest : List Transaction),
    (s.pending = .read 0x018 8 :: rest →
      step s = .next { s with pending := rest, reads := s.reads ++ [s.t.extractLsb' 0 64] }) ∧
    (s.pending = .read 0x020 8 :: rest →
      step s = .next { s with pending := rest, reads := s.reads ++ [s.t.extractLsb' 64 64] }) ∧
    (∀ v : Word64, s.pending = .write 0x018 8 v :: rest ∨ s.pending = .write 0x020 8 v :: rest →
      ∃ e, step s = .fault (.busError e))) ∧
  State.reset.t = 0

/-- R37, R73: a read of DIN returns the value last written, and no command changes DIN. -/
def Obligations.DinHoldsLastWrite : Prop :=
  (∀ (s : State) (v : Word64) (rest : List Transaction),
    s.pending = .write 0x010 8 v :: .read 0x010 8 :: rest →
    core.run 2 s = .next ({ s with pending := rest, din := v, reads := s.reads ++ [v] } : State)) ∧
  (∀ (w : Word64) (s t : State), runCommand w s = .next t → t.din = s.din)

/-- R36, 20_memory.md R61: a write of KEYINk, SALTINk or PERSINk stores the value and has no other effect. -/
def Obligations.StagingWriteOnlyStores : Prop :=
  ∀ (s : State) (v : Word64) (rest : List Transaction),
    (∀ k : Fin 8, s.pending = .write (BitVec.ofNat 8 (0x040 + 8 * k.val)) 8 v :: rest →
      step s = .next { s with pending := rest, keyIn := s.keyIn.set k v }) ∧
    (∀ k : Fin 2, s.pending = .write (BitVec.ofNat 8 (0x080 + 8 * k.val)) 8 v :: rest →
      step s = .next { s with pending := rest, saltIn := s.saltIn.set k v }) ∧
    (∀ k : Fin 2, s.pending = .write (BitVec.ofNat 8 (0x090 + 8 * k.val)) 8 v :: rest →
      step s = .next { s with pending := rest, persIn := s.persIn.set k v })

/-- 20_memory.md R70: OUTk reads as output bytes 8k..8k+7, lowest byte in [7:0]; after DIGEST 0 with outputLength 64 it reads
as `S.h[k]`. -/
def Obligations.OutWindowRead : Prop :=
  (∀ (s : State) (k : Fin 8) (rest : List Transaction),
    s.pending = .read (BitVec.ofNat 8 (0x0C0 + 8 * k.val)) 8 :: rest →
    ∃ w : Word64, step s = .next { s with pending := rest, reads := s.reads ++ [w] } ∧
      ∀ j : Fin 8, w.extractLsb' (8 * j.val) 8 = s.out[8 * k.val + j.val]) ∧
  (∀ s : State, s.configured = true → s.finalized = false → s.outputLength = 64 →
    ∃ t, exec (.digest 0) s = .next t ∧ ∀ k : Fin 8, readReg t (.out k) = .ok t.h[k])

/-- R73: a read changes nothing but the host's list of values, and two reads of one register with no write between them return
the same value. The list of values and the list of transactions are the model's own (log entries 1 and 2). -/
def Obligations.ReadsHaveNoSideEffect : Prop :=
  (∀ (s t : State) (offset : BitVec 8) (size : Nat) (rest : List Transaction),
    s.pending = .read offset size :: rest → step s = .next t →
    ∃ v, t = { s with pending := rest, reads := s.reads ++ [v] }) ∧
  (∀ (s t : State) (offset : BitVec 8) (size : Nat) (rest : List Transaction),
    s.pending = .read offset size :: .read offset size :: rest → core.run 2 s = .next t →
    ∃ v, t = { s with pending := rest, reads := s.reads ++ [v, v] })

/-- R46, R264: what a host read returns depends only on STATUS's fields, the counter, DIN and OUT; the chaining state, the
buffer, key, salt, personalization and staging never reach the host. -/
def Obligations.SecretsAreNotReadable : Prop :=
  ∀ (s u : State) (offset : BitVec 8) (size : Nat) (rest : List Transaction),
    s.pending = .read offset size :: rest → u.pending = .read offset size :: rest →
    s.configured = u.configured → s.finalized = u.finalized → s.errSticky = u.errSticky → s.lastErr = u.lastErr →
    s.bufferLength = u.bufferLength → s.outputLength = u.outputLength → s.keyLength = u.keyLength →
    s.t = u.t → s.din = u.din → s.out = u.out →
    (∃ e, step s = .fault e ∧ step u = .fault e) ∨
    (∃ v, step s = .next { s with pending := rest, reads := s.reads ++ [v] } ∧
      step u = .next { u with pending := rest, reads := u.reads ++ [v] })

/-- 60_exceptions.md R265: with no transaction the engine is idle and holds all of its state. That an idle engine takes a
step is the model's reading (log entry 3). -/
def Obligations.IdleEngineHoldsState : Prop :=
  ∀ s : State, s.pending = [] → step s = .next s

/-! ## The parameter block and INIT -/

/-- 40_initialization.md R121: the layout of the parameter block. -/
def Obligations.ParameterBlockLayout : Prop :=
  ∀ s : State, s.outputLength ≤ 64 → s.keyLength ≤ 64 →
    (s.paramBlock[0].toNat = s.outputLength ∧ s.paramBlock[1].toNat = s.keyLength ∧
      s.paramBlock[2] = 1 ∧ s.paramBlock[3] = 1) ∧
    (∀ i : Fin 64, 4 ≤ i.val → i.val ≤ 31 → s.paramBlock[i] = 0) ∧
    (∀ i : Fin 16, s.paramBlock[32 + i.val] = s.salt[i]) ∧
    (∀ i : Fin 16, s.paramBlock[48 + i.val] = s.personalization[i])

/-- R122: the parameter block read as eight words. -/
def Obligations.ParameterBlockWords : Prop :=
  ∀ s : State, s.outputLength ≤ 64 → s.keyLength ≤ 64 →
    s.paramWords =
      #v[0x0000000001010000 ||| (BitVec.ofNat 64 s.keyLength <<< 8) ||| BitVec.ofNat 64 s.outputLength, 0, 0, 0,
         le64 (m := 2) s.salt 0, le64 (m := 2) s.salt 1,
         le64 (m := 2) s.personalization 0, le64 (m := 2) s.personalization 1]

/-- R120, R123 to R126: INIT with operands it accepts, in every state: key, salt and personalization from staging, staging
zeroed, the lengths, the chaining state from IV and parameter block, an empty stream or the deferred key block; ERR_STICKY,
DIN, OUT and the host's side unchanged. -/
def Obligations.InitSucceeds : Prop :=
  ∀ (s : State) (outLen keyLen saltLen persLen : Byte),
    1 ≤ outLen.toNat → outLen.toNat ≤ 64 → keyLen.toNat ≤ 64 → (saltLen = 0 ∨ saltLen = 16) →
    (persLen = 0 ∨ persLen = 16) →
    ∃ t, exec (.init outLen keyLen saltLen persLen) s = .next t ∧
      (∀ i : Fin 64, t.key[i] =
        if i.val < keyLen.toNat then (s.keyIn[i.val / 8]).extractLsb' (8 * (i.val % 8)) 8 else 0) ∧
      (∀ i : Fin 16, t.salt[i] =
        if saltLen = 16 then (s.saltIn[i.val / 8]).extractLsb' (8 * (i.val % 8)) 8 else 0) ∧
      (∀ i : Fin 16, t.personalization[i] =
        if persLen = 16 then (s.persIn[i.val / 8]).extractLsb' (8 * (i.val % 8)) 8 else 0) ∧
      t.keyIn = Vector.replicate 8 0 ∧ t.saltIn = Vector.replicate 2 0 ∧ t.persIn = Vector.replicate 2 0 ∧
      t.outputLength = outLen.toNat ∧ t.keyLength = keyLen.toNat ∧ t.configured = true ∧ t.finalized = false ∧
      t.h = startChain outLen.toNat keyLen.toNat
        (if saltLen = 16 then s.saltIn else Vector.replicate 2 0)
        (if persLen = 16 then s.persIn else Vector.replicate 2 0) ∧
      t.t = 0 ∧ t.bufferLength = (if keyLen = 0 then 0 else 128) ∧
      (∀ i : Fin 128, t.buffer[i] = if h : i.val < 64 then t.key[i.val] else 0) ∧
      t.lastErr = .ok ∧ t.errSticky = s.errSticky ∧ t.din = s.din ∧ t.out = s.out ∧
      t.pending = s.pending ∧ t.reads = s.reads

/-- R120: INIT with an operand it rejects raises INVALID_PARAMETER, in every state, and changes nothing else. -/
def Obligations.InitRejectsParameters : Prop :=
  ∀ (s : State) (outLen keyLen saltLen persLen : Byte),
    (outLen.toNat = 0 ∨ 64 < outLen.toNat ∨ 64 < keyLen.toNat ∨ (saltLen ≠ 0 ∧ saltLen ≠ 16) ∨
      (persLen ≠ 0 ∧ persLen ≠ 16)) →
    exec (.init outLen keyLen saltLen persLen) s =
      .next { s with lastErr := .invalidParameter, errSticky := true }

/-- R128: the chaining states of the four named configurations after INIT. -/
def Obligations.NamedConfigurations : Prop :=
  ∀ (s : State) (outLen : Byte) (h0 : Word64),
    ((outLen, h0) = (20, 0x6a09e667f2bdc91c) ∨ (outLen, h0) = (32, 0x6a09e667f2bdc928) ∨
      (outLen, h0) = (48, 0x6a09e667f2bdc938) ∨ (outLen, h0) = (64, 0x6a09e667f2bdc948)) →
    ∃ t, exec (.init outLen 0 0 0) s = .next t ∧
      t.h = #v[h0, iv[1], iv[2], iv[3], iv[4], iv[5], iv[6], iv[7]]

/-- R127: an absent salt or personalization is sixteen zero bytes, and a present one of zeros gives the same state. -/
def Obligations.AbsentSaltIsZeroSalt : Prop :=
  ∀ (s : State) (outLen keyLen saltLen persLen : Byte),
    1 ≤ outLen.toNat → outLen.toNat ≤ 64 → keyLen.toNat ≤ 64 → (saltLen = 0 ∨ saltLen = 16) →
    (persLen = 0 ∨ persLen = 16) →
    (∃ t, exec (.init outLen keyLen 0 persLen) s = .next t ∧ t.salt = zeros 16) ∧
    (∃ t, exec (.init outLen keyLen saltLen 0) s = .next t ∧ t.personalization = zeros 16) ∧
    (s.saltIn = Vector.replicate 2 0 →
      exec (.init outLen keyLen 16 persLen) s = exec (.init outLen keyLen 0 persLen) s) ∧
    (s.persIn = Vector.replicate 2 0 →
      exec (.init outLen keyLen saltLen 16) s = exec (.init outLen keyLen saltLen 0) s)

/-- 70_reset_and_hazards.md R286: no command but INIT reads or writes the staging registers. -/
def Obligations.OnlyInitUsesStaging : Prop :=
  ∀ (i : Instr) (s t : State) (k : Vector Word64 8) (a p : Vector Word64 2),
    (∀ outLen keyLen saltLen persLen, i ≠ .init outLen keyLen saltLen persLen) → exec i s = .next t →
    exec i { s with keyIn := k, saltIn := a, persIn := p } =
      .next { t with keyIn := k, saltIn := a, persIn := p } ∧
    t.keyIn = s.keyIn ∧ t.saltIn = s.saltIn ∧ t.persIn = s.persIn

/-! ## UPDATE, Absorb and the counter -/

/-- 41_update.md R152, R150, R154: an UPDATE whose bytes fit places DIN's low COUNT bytes behind the buffered ones and
compresses nothing, even when it fills the buffer; nothing else changes. -/
def Obligations.UpdateWithinBlock : Prop :=
  ∀ (s : State) (count : Byte),
    s.configured = true → s.finalized = false → count.toNat ≤ 8 → s.bufferLength + count.toNat ≤ 128 →
    ∃ b : Vector Byte 128,
      exec (.update count) s =
        .next { s with buffer := b, bufferLength := s.bufferLength + count.toNat, lastErr := .ok } ∧
      ∀ i : Fin 128, b[i] =
        if s.bufferLength ≤ i.val ∧ i.val < s.bufferLength + count.toNat then
          s.din.extractLsb' (8 * (i.val - s.bufferLength)) 8
        else s.buffer[i]

/-- R152, R150, R151, R154: an UPDATE with more bytes than the block has room for completes the block, compresses it once,
not as the last, with the counter 128 higher, and holds the bytes left over in a zeroed buffer; nothing else changes. -/
def Obligations.UpdateAcrossBlock : Prop :=
  ∀ (s : State) (count : Byte),
    s.configured = true → s.finalized = false → count.toNat ≤ 8 → s.bufferLength ≤ 128 →
    128 < s.bufferLength + count.toNat →
    ∃ full b : Vector Byte 128,
      exec (.update count) s =
        .next { s with
          h := compress s.h full (s.t + 128) false
          t := s.t + 128
          buffer := b
          bufferLength := s.bufferLength + count.toNat - 128
          lastErr := .ok } ∧
      (∀ i : Fin 128, full[i] =
        if i.val < s.bufferLength then s.buffer[i] else s.din.extractLsb' (8 * (i.val - s.bufferLength)) 8) ∧
      (∀ i : Fin 128, b[i] =
        if i.val < s.bufferLength + count.toNat - 128 then
          s.din.extractLsb' (8 * (i.val + 128 - s.bufferLength)) 8
        else 0)

/-- R152, 60_exceptions.md R253: where UPDATE fails: COUNT > 8 is ILLEGAL_COMMAND in every state, else an unconfigured or
finalized engine is INVALID_STATE; nothing is absorbed. That the term with COUNT > 8, which no word decodes to, does what
its word does is the model's choice (log entry 11). -/
def Obligations.UpdateErrors : Prop :=
  ∀ (s : State) (count : Byte),
    (8 < count.toNat → exec (.update count) s = .next { s with lastErr := .illegalCommand, errSticky := true }) ∧
    (count.toNat ≤ 8 → s.configured = false ∨ s.finalized = true →
      exec (.update count) s = .next { s with lastErr := .invalidState, errSticky := true })

/-- R153: any sequence of DIN writes and UPDATEs of at most 8 bytes each leaves the stream that absorbing the concatenated
bytes leaves, whatever the split. -/
def Obligations.ChunkingIndependence : Prop :=
  ∀ (s : State) (chunks : List (List Byte)) (rest : List Transaction),
    s.configured = true → s.finalized = false → (∀ c ∈ chunks, c.length ≤ 8) →
    s.pending = chunks.flatMap absorbChunk ++ rest →
    ∃ t : State, core.run (2 * chunks.length) s = .next t ∧ t.pending = rest ∧
      t.h = (s.absorb chunks.flatten).h ∧ t.t = (s.absorb chunks.flatten).t ∧
      t.buffer = (s.absorb chunks.flatten).buffer ∧ t.bufferLength = (s.absorb chunks.flatten).bufferLength ∧
      t.configured = true ∧ t.finalized = false ∧ t.outputLength = s.outputLength ∧ t.keyLength = s.keyLength ∧
      t.key = s.key ∧ t.salt = s.salt ∧ t.personalization = s.personalization ∧ t.out = s.out ∧
      t.errSticky = s.errSticky ∧ t.reads = s.reads

/-- 10_state.md R44: counter and buffered bytes together count the absorbed bytes, the counter moves in blocks, and the buffer
is empty only if nothing was absorbed. -/
def Obligations.CounterCountsAbsorbedBytes : Prop :=
  ∀ (s : State) (bytes : List Byte), s.bufferLength ≤ 128 →
    (s.absorb bytes).bufferLength ≤ 128 ∧
    (s.absorb bytes).t + BitVec.ofNat 128 (s.absorb bytes).bufferLength =
      s.t + BitVec.ofNat 128 (s.bufferLength + bytes.length) ∧
    (s.t.toNat % 128 = 0 → (s.absorb bytes).t.toNat % 128 = 0) ∧
    (bytes ≠ [] → 0 < (s.absorb bytes).bufferLength)

/-- 41_update.md R155: how many non-final compressions a message of L bytes causes before DIGEST adds the final one, told by
the counter: `max(1, ceil(L/128)) - 1` from an empty stream, `ceil(L/128)` behind a key block. -/
def Obligations.CompressionCount : Prop :=
  ∀ (s : State) (bytes : List Byte), s.t = 0 →
    (s.bufferLength = 0 →
      (s.absorb bytes).t = BitVec.ofNat 128 (128 * (max 1 ((bytes.length + 127) / 128) - 1))) ∧
    (s.bufferLength = 128 → (s.absorb bytes).t = BitVec.ofNat 128 (128 * ((bytes.length + 127) / 128)))

/-- R151: Add128 on the halves of the counter, with the carry from low into high and both halves wrapping. -/
def Obligations.CounterAdditionCarries : Prop :=
  ∀ (t : Word128) (n : Nat), n ≤ 128 →
    tLow (add128 t n) = BitVec.ofNat 64 (((tLow t).toNat + n) % 2 ^ 64) ∧
    tHigh (add128 t n) =
      BitVec.ofNat 64 (((tHigh t).toNat + if 2 ^ 64 ≤ (tLow t).toNat + n then 1 else 0) % 2 ^ 64)

/-! ## The compression function -/

/-- 42_compression.md R175, 00_scope.md R9: G on four distinct words: the eight statements in order with right rotations by
32, 24, 16 and 63; no other word changes. -/
def Obligations.MixerUpdatesFourWords : Prop :=
  ∀ (a b c d : Fin 16) (x y : Word64) (v : Vector Word64 16),
    a ≠ b → a ≠ c → a ≠ d → b ≠ c → b ≠ d → c ≠ d →
    ∃ a1 d1 c1 b1 a2 d2 c2 b2 : Word64,
      a1 = v[a] + v[b] + x ∧ d1 = (v[d] ^^^ a1).rotateRight 32 ∧
      c1 = v[c] + d1 ∧ b1 = (v[b] ^^^ c1).rotateRight 24 ∧
      a2 = a1 + b1 + y ∧ d2 = (d1 ^^^ a2).rotateRight 16 ∧
      c2 = c1 + d2 ∧ b2 = (b1 ^^^ c2).rotateRight 63 ∧
      (mixG a b c d x y v)[a] = a2 ∧ (mixG a b c d x y v)[b] = b2 ∧
      (mixG a b c d x y v)[c] = c2 ∧ (mixG a b c d x y v)[d] = d2 ∧
      ∀ i : Fin 16, i ≠ a → i ≠ b → i ≠ c → i ≠ d → (mixG a b c d x y v)[i] = v[i]

/-- R176: G calls on disjoint words commute, so the order within the column group and within the diagonal group does not
change the result. -/
def Obligations.DisjointMixersCommute : Prop :=
  ∀ (a b c d e f g h : Fin 16) (x y z w : Word64) (v : Vector Word64 16),
    [a, b, c, d, e, f, g, h].Nodup →
    mixG a b c d x y (mixG e f g h z w v) = mixG e f g h z w (mixG a b c d x y v)

/-- R172, R181 (log entry 10): every row of SIGMA is a permutation of 0..15, and rows 10 and 11 repeat rows 0 and 1. -/
def Obligations.SigmaRowsArePermutations : Prop :=
  (∀ (r : Fin 12) (k : Fin 16), ∃ j : Fin 16, sigma[r][j] = k ∧ ∀ l : Fin 16, sigma[r][l] = k → l = j) ∧
  sigma[10] = sigma[0] ∧ sigma[11] = sigma[1]

/-- R174: the working vector before round 0. -/
def Obligations.WorkingVectorSetup : Prop :=
  ∀ (h : Vector Word64 8) (t : Word128) (last : Bool),
    (∀ i : Fin 8, (workVector h t last)[i.val] = h[i]) ∧
    (∀ i : Fin 4, (workVector h t last)[8 + i.val] = iv[i.val]) ∧
    (workVector h t last)[12] = iv[4] ^^^ t.extractLsb' 0 64 ∧
    (workVector h t last)[13] = iv[5] ^^^ t.extractLsb' 64 64 ∧
    (workVector h t last)[14] = (if last then ~~~ iv[6] else iv[6]) ∧
    (workVector h t last)[15] = iv[7]

/-! ## DIGEST -/

/-- 43_finalization.md R200 to R204: a DIGEST that fits, on a configured open stream: zero padding, the counter increased by
the real bytes, the final compression, the digest bytes into OUT from OFFSET, FINALIZED, an emptied buffer; every other OUT
byte and every other item of state unchanged. -/
def Obligations.DigestSucceeds : Prop :=
  ∀ (s : State) (offset : Byte),
    s.configured = true → s.finalized = false → offset.toNat + s.outputLength ≤ 64 →
    ∃ (block : Vector Byte 128) (h : Vector Word64 8) (out : Vector Byte 64),
      exec (.digest offset) s =
        .next { s with
          h := h
          t := s.t + BitVec.ofNat 128 s.bufferLength
          out := out
          finalized := true
          buffer := zeros 128
          bufferLength := 0
          lastErr := .ok } ∧
      (∀ i : Fin 128, block[i] = if i.val < s.bufferLength then s.buffer[i] else 0) ∧
      h = compress s.h block (s.t + BitVec.ofNat 128 s.bufferLength) true ∧
      (∀ k : Fin 64, out[k] =
        if offset.toNat ≤ k.val ∧ k.val < offset.toNat + s.outputLength then
          (h[(k.val - offset.toNat) / 8]).extractLsb' (8 * ((k.val - offset.toNat) % 8)) 8
        else s.out[k])

/-- R200, 60_exceptions.md R253: where DIGEST fails: an unconfigured or finalized engine is INVALID_STATE whatever OFFSET is,
else OFFSET + outputLength > 64 is BUFFER_TOO_SMALL; nothing is finalized or written. -/
def Obligations.DigestErrors : Prop :=
  ∀ (s : State) (offset : Byte),
    (s.configured = false ∨ s.finalized = true →
      exec (.digest offset) s = .next { s with lastErr := .invalidState, errSticky := true }) ∧
    (s.configured = true → s.finalized = false → 64 < offset.toNat + s.outputLength →
      exec (.digest offset) s = .next { s with lastErr := .bufferTooSmall, errSticky := true })

/-- R201: in a state that keeps 10_state.md R27 the padding writes bytes that are already 0. -/
def Obligations.PaddingWritesZerosOverZeros : Prop :=
  ∀ (s : State) (offset : Byte), s.Inv →
    s.configured = true → s.finalized = false → offset.toNat + s.outputLength ≤ 64 →
    ∃ t, exec (.digest offset) s = .next t ∧
      t.h = compress s.h s.buffer (s.t + BitVec.ofNat 128 s.bufferLength) true

/-- R207: the OUT bytes a DIGEST leaves depend only on the stream (chaining state, counter, buffer), the output length and
what OUT held before. -/
def Obligations.DigestDependsOnlyOnStream : Prop :=
  ∀ (s u : State) (offset : Byte),
    s.configured = true → s.finalized = false → u.configured = true → u.finalized = false →
    s.h = u.h → s.t = u.t → s.buffer = u.buffer → s.bufferLength = u.bufferLength → s.outputLength = u.outputLength →
    s.out = u.out → offset.toNat + s.outputLength ≤ 64 →
    ∃ t t' : State, exec (.digest offset) s = .next t ∧ exec (.digest offset) u = .next t' ∧ t.out = t'.out

/-- R43, R153, R200, R207 and 00_scope.md R1: INIT, any chunks of UPDATEs and DIGEST, from any state whatever, leave in OUT the
first outputLength bytes of BLAKE2b of the whole message under the staged key, salt and personalization, and in the counter
the stream's length. -/
def Obligations.EngineComputesBlake2b : Prop :=
  ∀ (s : State) (outLen keyLen saltLen persLen offset : Byte) (chunks : List (List Byte)) (rest : List Transaction),
    1 ≤ outLen.toNat → outLen.toNat ≤ 64 → keyLen.toNat ≤ 64 → (saltLen = 0 ∨ saltLen = 16) →
    (persLen = 0 ∨ persLen = 16) → offset.toNat + outLen.toNat ≤ 64 → (∀ c ∈ chunks, c.length ≤ 8) →
    s.pending = command (.init outLen keyLen saltLen persLen) ::
      (chunks.flatMap absorbChunk ++ command (.digest offset) :: rest) →
    ∃ t : State, core.run (2 * chunks.length + 2) s = .next t ∧ t.pending = rest ∧ t.finalized = true ∧
      t.t = BitVec.ofNat 128 ((if keyLen = 0 then 0 else 128) + chunks.flatten.length) ∧
      ∀ k : Fin 64, t.out[k] =
        if offset.toNat ≤ k.val ∧ k.val < offset.toNat + outLen.toNat then
          (blake2bBytes outLen.toNat ((toBytes s.keyIn).toList.take keyLen.toNat)
            (if saltLen = 16 then s.saltIn else Vector.replicate 2 0)
            (if persLen = 16 then s.persIn else Vector.replicate 2 0) chunks.flatten)[k.val - offset.toNat]
        else s.out[k]

/-! ## RESET, CLEAR_KEY, CLEAR_SALT and ACK_ERR -/

/-- 44_teardown_and_status.md R220, 70_reset_and_hazards.md R282: RESET on a configured engine restarts the stream from the
stored configuration and changes nothing else; on an unconfigured one it raises INVALID_STATE. -/
def Obligations.ResetRestartsStream : Prop :=
  ∀ s : State,
    (s.configured = true → s.outputLength ≤ 64 → s.keyLength ≤ 64 →
      exec .reset s =
        .next { s with
          h := startChain s.outputLength s.keyLength (toWords 2 s.salt) (toWords 2 s.personalization)
          t := 0
          buffer := if s.keyLength = 0 then zeros 128 else keyBlock s.key
          bufferLength := if s.keyLength = 0 then 0 else 128
          finalized := false
          lastErr := .ok }) ∧
    (s.configured = false → exec .reset s = .next { s with lastErr := .invalidState, errSticky := true })

/-- R221: CLEAR_KEY zeroes the key, and the buffer while it holds the key block; nothing else changes. -/
def Obligations.ClearKeyErasesKey : Prop :=
  ∀ s : State,
    (s.configured = true →
      exec .clearKey s =
        .next { s with
          key := zeros 64
          buffer := if 0 < s.keyLength ∧ s.t = 0 then zeros 128 else s.buffer
          lastErr := .ok }) ∧
    (s.configured = false → exec .clearKey s = .next { s with lastErr := .invalidState, errSticky := true })

/-- R222: CLEAR_SALT zeroes the stored salt and nothing else. -/
def Obligations.ClearSaltErasesSalt : Prop :=
  ∀ s : State,
    (s.configured = true → exec .clearSalt s = .next { s with salt := zeros 16, lastErr := .ok }) ∧
    (s.configured = false → exec .clearSalt s = .next { s with lastErr := .invalidState, errSticky := true })

/-- R223: ACK_ERR, in every state, clears the two error fields and changes nothing else. -/
def Obligations.AckErrClearsErrors : Prop :=
  ∀ s : State, exec .ackErr s = .next { s with errSticky := false, lastErr := .ok }

/-- R226: CLEAR_KEY, CLEAR_SALT, RESET leave key and salt zero, no key byte in the buffer, the chaining state of zero key and
zero salt, and the rest of the configuration, DIN and OUT as they were. -/
def Obligations.TeardownLeavesNoSecret : Prop :=
  ∀ (s : State) (rest : List Transaction), s.configured = true → s.outputLength ≤ 64 → s.keyLength ≤ 64 →
    s.pending = command .clearKey :: command .clearSalt :: command .reset :: rest →
    ∃ t : State, core.run 3 s = .next t ∧ t.key = zeros 64 ∧ t.salt = zeros 16 ∧ t.buffer = zeros 128 ∧
      t.h = startChain s.outputLength s.keyLength (Vector.replicate 2 0) (toWords 2 s.personalization) ∧
      t.t = 0 ∧ t.personalization = s.personalization ∧ t.outputLength = s.outputLength ∧
      t.keyLength = s.keyLength ∧ t.din = s.din ∧ t.out = s.out

/-- R225: after CLEAR_KEY and RESET the engine is, key, stream and configuration, the one that INIT with the same lengths, a key
of zero bytes and the same salt and personalization leaves. -/
def Obligations.ClearedKeyIsZeroKey : Prop :=
  ∀ (s u : State) (rest : List Transaction), s.Inv → s.configured = true →
    s.pending = command .clearKey :: command .reset :: rest →
    u.keyIn = Vector.replicate 8 0 → u.saltIn = toWords 2 s.salt → u.persIn = toWords 2 s.personalization →
    ∃ t t' : State, core.run 2 s = .next t ∧
      exec (.init (BitVec.ofNat 8 s.outputLength) (BitVec.ofNat 8 s.keyLength) 16 16) u = .next t' ∧
      t.h = t'.h ∧ t.t = t'.t ∧ t.buffer = t'.buffer ∧ t.bufferLength = t'.bufferLength ∧
      t.outputLength = t'.outputLength ∧ t.keyLength = t'.keyLength ∧ t.key = t'.key ∧ t.salt = t'.salt ∧
      t.personalization = t'.personalization ∧ t.configured = t'.configured ∧ t.finalized = t'.finalized

/-- R224: RESET, the same message in any two splits, and DIGEST at the same OFFSET write the same bytes both times. -/
def Obligations.ResetIsIdempotent : Prop :=
  ∀ (s : State) (offset : Byte) (chunks again : List (List Byte)) (rest : List Transaction), s.Inv →
    s.configured = true → offset.toNat + s.outputLength ≤ 64 →
    (∀ c ∈ chunks, c.length ≤ 8) → (∀ c ∈ again, c.length ≤ 8) → chunks.flatten = again.flatten →
    s.pending = command .reset :: (chunks.flatMap absorbChunk ++ command (.digest offset) ::
      command .reset :: (again.flatMap absorbChunk ++ command (.digest offset) :: rest)) →
    ∃ t t' : State, core.run (2 * chunks.length + 2) s = .next t ∧ core.run (2 * again.length + 2) t = .next t' ∧
      t.finalized = true ∧ t'.finalized = true ∧ t'.pending = rest ∧ t'.out = t.out ∧ t'.h = t.h ∧ t'.t = t.t

/-! ## Errors and the engine's life -/

/-- 60_exceptions.md R252: a command word that raises an error changes nothing but LASTERR and ERR_STICKY. -/
def Obligations.ErrorsArePrecise : Prop :=
  ∀ (w : Word64) (s t : State), runCommand w s = .next t → t.lastErr ≠ .ok →
    t = { s with lastErr := t.lastErr, errSticky := true }

/-- 20_memory.md R72, 60_exceptions.md R254, R256: every word written to CMD, in every state, completes in that one step with
a next state; no command faults or stops the engine. -/
def Obligations.EveryCommandCompletes : Prop :=
  ∀ (w : Word64) (s : State), ∃ t, runCommand w s = .next t

/-- R251, R257: ERR_STICKY after a command is set exactly if it was set or the command failed, but for ACK_ERR, which clears
it; a success reports code 0. -/
def Obligations.StickyBitRemembersFailures : Prop :=
  ∀ (w : Word64) (s t : State), runCommand w s = .next t →
    (decode w ≠ .ok .ackErr → t.errSticky = (s.errSticky || decide (t.lastErr ≠ .ok))) ∧
    (decode w = .ok .ackErr → t.errSticky = false ∧ t.lastErr = .ok)

/-- 10_state.md R34: nothing a host does unconfigures the engine, and only a successful INIT configures it. -/
def Obligations.ConfiguredOnlyByInit : Prop :=
  (∀ s t : State, step s = .next t → s.configured = true → t.configured = true) ∧
  (∀ (i : Instr) (s t : State), exec i s = .next t → s.configured = false → t.configured = true →
    ∃ outLen keyLen saltLen persLen, i = .init outLen keyLen saltLen persLen ∧ t.lastErr = .ok)

/-- R34, R250: before the first INIT, UPDATE, DIGEST, RESET, CLEAR_KEY and CLEAR_SALT raise INVALID_STATE. -/
def Obligations.UnconfiguredEngineRefuses : Prop :=
  ∀ (i : Instr) (s : State), i.wellFormed = true → s.configured = false → i ≠ .ackErr →
    (∀ outLen keyLen saltLen persLen, i ≠ .init outLen keyLen saltLen persLen) →
    exec i s = .next { s with lastErr := .invalidState, errSticky := true }

/-- R28, R29, R32: only INIT changes the lengths and the personalization. -/
def Obligations.OnlyInitChangesConfiguration : Prop :=
  ∀ (i : Instr) (s t : State),
    (∀ outLen keyLen saltLen persLen, i ≠ .init outLen keyLen saltLen persLen) → exec i s = .next t →
    t.outputLength = s.outputLength ∧ t.keyLength = s.keyLength ∧ t.personalization = s.personalization ∧
      t.configured = s.configured ∧ (i ≠ .clearKey → t.key = s.key) ∧ (i ≠ .clearSalt → t.salt = s.salt)

/-- R38: only DIGEST writes OUT, and no command touches the host's side. -/
def Obligations.OnlyDigestWritesOut : Prop :=
  ∀ (i : Instr) (s t : State), exec i s = .next t →
    ((∀ offset, i ≠ .digest offset) → t.out = s.out) ∧ t.pending = s.pending ∧ t.reads = s.reads

/-- 43_finalization.md R204: until RESET or INIT a finalized engine keeps its chaining state, counter, OUT and flag, and
UPDATE and DIGEST raise INVALID_STATE. -/
def Obligations.FinalizedStreamIsFrozen : Prop :=
  ∀ (i : Instr) (s t : State), s.finalized = true → exec i s = .next t → i ≠ .reset →
    (∀ outLen keyLen saltLen persLen, i ≠ .init outLen keyLen saltLen persLen) →
    t.finalized = true ∧ t.h = s.h ∧ t.t = s.t ∧ t.out = s.out ∧
    (i.wellFormed = true → (∃ n, i = .update n) ∨ (∃ o, i = .digest o) → t.lastErr = .invalidState)

/-! ## Power-on and invariants -/

/-- 70_reset_and_hazards.md R280: every item of state after power-on reset. The last clause, that the engine starts nothing on
its own, rests on the model's own list of transactions, empty at reset (log entries 1 and 3). -/
def Obligations.PowerOnState : Prop :=
  (∀ i : Fin 8, State.reset.h[i] = 0) ∧ State.reset.t = 0 ∧ (∀ i : Fin 128, State.reset.buffer[i] = 0) ∧
  State.reset.bufferLength = 0 ∧ State.reset.outputLength = 0 ∧ State.reset.keyLength = 0 ∧
  (∀ i : Fin 64, State.reset.key[i] = 0) ∧ (∀ i : Fin 16, State.reset.salt[i] = 0) ∧
  (∀ i : Fin 16, State.reset.personalization[i] = 0) ∧ State.reset.finalized = false ∧
  State.reset.configured = false ∧ State.reset.lastErr = .ok ∧ State.reset.errSticky = false ∧
  (∀ i : Fin 8, State.reset.keyIn[i] = 0) ∧ (∀ i : Fin 2, State.reset.saltIn[i] = 0) ∧
  (∀ i : Fin 2, State.reset.persIn[i] = 0) ∧ State.reset.din = 0 ∧ (∀ i : Fin 64, State.reset.out[i] = 0) ∧
  State.reset.status = 0x0000000000000000 ∧ step State.reset = .next State.reset

/-- R26 to R30, R33 to R35, R280: the invariant holds after power-on, and so does the key-block property of R45. -/
def Obligations.ResetMeetsInvariant : Prop :=
  State.reset.Inv ∧ State.reset.HoldsKeyBlock

/-- R26 to R30, R33 to R35, R44, 43_finalization.md R203: every step of the engine keeps the invariant, whatever the host
sends. -/
def Obligations.StepKeepsInvariant : Prop :=
  ∀ s t : State, s.Inv → step s = .next t → t.Inv

/-- R45: while the counter of an open keyed stream is 0 the buffer holds the key block (zeros once CLEAR_KEY has run); every
step keeps this, as long as the counter does not wrap in that step (41_update.md R151; unreachable in practice). -/
def Obligations.KeyBlockStaysBuffered : Prop :=
  ∀ s t : State, s.Inv → s.HoldsKeyBlock → s.t.toNat + 128 < 2 ^ 128 → step s = .next t → t.HoldsKeyBlock

/-- R45: once any further byte is absorbed, or DIGEST runs, the key block has been compressed and the counter is at least
128. -/
def Obligations.NextByteCompressesKeyBlock : Prop :=
  ∀ s : State, s.HoldsKeyBlock → s.configured = true → s.finalized = false → 0 < s.keyLength → s.t = 0 →
    (∀ count : Byte, 1 ≤ count.toNat → count.toNat ≤ 8 →
      ∃ t, exec (.update count) s = .next t ∧ t.t = 128 ∧ t.bufferLength = count.toNat ∧
        t.h = compress s.h (keyBlock s.key) 128 false) ∧
    (∀ offset : Byte, offset.toNat + s.outputLength ≤ 64 →
      ∃ t, exec (.digest offset) s = .next t ∧ t.t = 128 ∧ t.h = compress s.h (keyBlock s.key) 128 true)
end

