-- ==== Sys2Proof/Laws/Bytes.lean ====
section
/-! SUPPORT. Words and byte sequences: the two conversions of 20_memory.md R66 undo each other, byte by byte. -/

namespace Sys2Proof.Machine

theorem getElem_toWords (m : Nat) (B : Vector Byte (8 * m)) (i : Nat) (h : i < m) : (toWords m B)[i] = le64 B ⟨i, h⟩ := by
  simp [toWords]

theorem getElem_toBytes {m : Nat} (ws : Vector Word64 m) (k : Nat) (h : k < 8 * m) :
    (toBytes ws)[k] = byteLane (ws[k / 8]) (k % 8) := by
  simp [toBytes]

/-- Byte `j` of `LE64(B, 8i)` is `B[8i + j]` (00_scope.md R10). -/
theorem byteLane_le64 {m : Nat} (B : Vector Byte (8 * m)) (i : Fin m) (j : Nat) (h : j < 8) :
    byteLane (le64 B i) j = B[8 * i.val + j] := by
  have hb : ∀ l, l < 8 → (byteLane (le64 B i) j).getLsbD l = (B[8 * i.val + j]).getLsbD l := by
    intro l hl
    unfold byteLane le64
    interval_cases j <;> interval_cases l <;> simp [placeField]
  exact BitVec.eq_of_getLsbD_eq hb

theorem byteLane_getLsbD (w : Word64) (j l : Nat) (h : l < 8) : (byteLane w j).getLsbD l = w.getLsbD (8 * j + l) := by
  simp [byteLane, h]

/-- A word is known by its eight bytes. -/
theorem eq_of_byteLane_eq (x y : Word64) (h : ∀ j, j < 8 → byteLane x j = byteLane y j) : x = y := by
  apply BitVec.eq_of_getLsbD_eq
  intro k hk
  have hj := congrArg (fun b : Byte => b.getLsbD (k % 8)) (h (k / 8) (by omega))
  have hl : k % 8 < 8 := by omega
  simp only [byteLane_getLsbD _ _ _ hl] at hj
  rwa [show 8 * (k / 8) + k % 8 = k by omega] at hj

theorem toBytes_toWords (m : Nat) (B : Vector Byte (8 * m)) : toBytes (toWords m B) = B := by
  ext k hk : 1
  rw [getElem_toBytes, getElem_toWords _ _ _ (by omega), byteLane_le64 _ _ _ (by omega)]
  simp only [Nat.div_add_mod]

theorem toWords_toBytes {m : Nat} (ws : Vector Word64 m) : toWords m (toBytes ws) = ws := by
  ext i hi : 1
  apply eq_of_byteLane_eq
  intro j hj
  rw [getElem_toWords _ _ _ hi, byteLane_le64 _ _ _ hj, getElem_toBytes]
  simp only [show (8 * i + j) / 8 = i by omega, show (8 * i + j) % 8 = j by omega]

theorem getElem_zeros (n i : Nat) (h : i < n) : (zeros n)[i] = 0 := by
  simp [zeros]

theorem getElem_keepFirst {m : Nat} (n : Nat) (B : Vector Byte m) (i : Nat) (h : i < m) :
    (keepFirst n B)[i] = if i < n then B[i] else 0 := by
  simp [keepFirst]

/-- Zero padding changes nothing where the bytes after the first `n` are already 0 (43_finalization.md R201). -/
theorem keepFirst_of_tail_zero {m : Nat} (n : Nat) (B : Vector Byte m) (h : ∀ i : Fin m, n ≤ i.val → B[i] = 0) :
    keepFirst n B = B := by
  ext i hi : 1
  rw [getElem_keepFirst]
  split
  · rfl
  · exact (h ⟨i, hi⟩ (by simp only; omega)).symm

theorem getElem_keyBlock (key : Vector Byte 64) (i : Nat) (h : i < 128) :
    (keyBlock key)[i] = if h : i < 64 then key[i] else 0 := by
  unfold keyBlock
  rw [Vector.getElem_append]
  split
  · rfl
  · rw [getElem_zeros]

end Sys2Proof.Machine
end

