-- ==== Sys2Proof/Laws/State.lean ====
section
/-! SUPPORT. One simp lemma per field per record update of the commands, each true by rfl, so that no later proof unfolds an
update. -/

namespace Sys2Proof.Machine.State

@[simp] theorem raiseError_h (e : ErrorCode) (s : State) : (s.raiseError e).h = s.h := rfl
@[simp] theorem raiseError_t (e : ErrorCode) (s : State) : (s.raiseError e).t = s.t := rfl
@[simp] theorem raiseError_buffer (e : ErrorCode) (s : State) : (s.raiseError e).buffer = s.buffer := rfl
@[simp] theorem raiseError_bufferLength (e : ErrorCode) (s : State) : (s.raiseError e).bufferLength = s.bufferLength := rfl
@[simp] theorem raiseError_outputLength (e : ErrorCode) (s : State) : (s.raiseError e).outputLength = s.outputLength := rfl
@[simp] theorem raiseError_keyLength (e : ErrorCode) (s : State) : (s.raiseError e).keyLength = s.keyLength := rfl
@[simp] theorem raiseError_key (e : ErrorCode) (s : State) : (s.raiseError e).key = s.key := rfl
@[simp] theorem raiseError_salt (e : ErrorCode) (s : State) : (s.raiseError e).salt = s.salt := rfl
@[simp] theorem raiseError_personalization (e : ErrorCode) (s : State) :
    (s.raiseError e).personalization = s.personalization := rfl
@[simp] theorem raiseError_finalized (e : ErrorCode) (s : State) : (s.raiseError e).finalized = s.finalized := rfl
@[simp] theorem raiseError_configured (e : ErrorCode) (s : State) : (s.raiseError e).configured = s.configured := rfl
@[simp] theorem raiseError_lastErr (e : ErrorCode) (s : State) : (s.raiseError e).lastErr = e := rfl
@[simp] theorem raiseError_errSticky (e : ErrorCode) (s : State) : (s.raiseError e).errSticky = true := rfl
@[simp] theorem raiseError_keyIn (e : ErrorCode) (s : State) : (s.raiseError e).keyIn = s.keyIn := rfl
@[simp] theorem raiseError_saltIn (e : ErrorCode) (s : State) : (s.raiseError e).saltIn = s.saltIn := rfl
@[simp] theorem raiseError_persIn (e : ErrorCode) (s : State) : (s.raiseError e).persIn = s.persIn := rfl
@[simp] theorem raiseError_din (e : ErrorCode) (s : State) : (s.raiseError e).din = s.din := rfl
@[simp] theorem raiseError_out (e : ErrorCode) (s : State) : (s.raiseError e).out = s.out := rfl
@[simp] theorem raiseError_pending (e : ErrorCode) (s : State) : (s.raiseError e).pending = s.pending := rfl
@[simp] theorem raiseError_reads (e : ErrorCode) (s : State) : (s.raiseError e).reads = s.reads := rfl

@[simp] theorem succeed_h (s : State) : (s.succeed).h = s.h := rfl
@[simp] theorem succeed_t (s : State) : (s.succeed).t = s.t := rfl
@[simp] theorem succeed_buffer (s : State) : (s.succeed).buffer = s.buffer := rfl
@[simp] theorem succeed_bufferLength (s : State) : (s.succeed).bufferLength = s.bufferLength := rfl
@[simp] theorem succeed_outputLength (s : State) : (s.succeed).outputLength = s.outputLength := rfl
@[simp] theorem succeed_keyLength (s : State) : (s.succeed).keyLength = s.keyLength := rfl
@[simp] theorem succeed_key (s : State) : (s.succeed).key = s.key := rfl
@[simp] theorem succeed_salt (s : State) : (s.succeed).salt = s.salt := rfl
@[simp] theorem succeed_personalization (s : State) : (s.succeed).personalization = s.personalization := rfl
@[simp] theorem succeed_finalized (s : State) : (s.succeed).finalized = s.finalized := rfl
@[simp] theorem succeed_configured (s : State) : (s.succeed).configured = s.configured := rfl
@[simp] theorem succeed_lastErr (s : State) : (s.succeed).lastErr = .ok := rfl
@[simp] theorem succeed_errSticky (s : State) : (s.succeed).errSticky = s.errSticky := rfl
@[simp] theorem succeed_keyIn (s : State) : (s.succeed).keyIn = s.keyIn := rfl
@[simp] theorem succeed_saltIn (s : State) : (s.succeed).saltIn = s.saltIn := rfl
@[simp] theorem succeed_persIn (s : State) : (s.succeed).persIn = s.persIn := rfl
@[simp] theorem succeed_din (s : State) : (s.succeed).din = s.din := rfl
@[simp] theorem succeed_out (s : State) : (s.succeed).out = s.out := rfl
@[simp] theorem succeed_pending (s : State) : (s.succeed).pending = s.pending := rfl
@[simp] theorem succeed_reads (s : State) : (s.succeed).reads = s.reads := rfl

@[simp] theorem acknowledge_h (s : State) : (s.acknowledge).h = s.h := rfl
@[simp] theorem acknowledge_t (s : State) : (s.acknowledge).t = s.t := rfl
@[simp] theorem acknowledge_buffer (s : State) : (s.acknowledge).buffer = s.buffer := rfl
@[simp] theorem acknowledge_bufferLength (s : State) : (s.acknowledge).bufferLength = s.bufferLength := rfl
@[simp] theorem acknowledge_outputLength (s : State) : (s.acknowledge).outputLength = s.outputLength := rfl
@[simp] theorem acknowledge_keyLength (s : State) : (s.acknowledge).keyLength = s.keyLength := rfl
@[simp] theorem acknowledge_key (s : State) : (s.acknowledge).key = s.key := rfl
@[simp] theorem acknowledge_salt (s : State) : (s.acknowledge).salt = s.salt := rfl
@[simp] theorem acknowledge_personalization (s : State) : (s.acknowledge).personalization = s.personalization := rfl
@[simp] theorem acknowledge_finalized (s : State) : (s.acknowledge).finalized = s.finalized := rfl
@[simp] theorem acknowledge_configured (s : State) : (s.acknowledge).configured = s.configured := rfl
@[simp] theorem acknowledge_lastErr (s : State) : (s.acknowledge).lastErr = .ok := rfl
@[simp] theorem acknowledge_errSticky (s : State) : (s.acknowledge).errSticky = false := rfl
@[simp] theorem acknowledge_keyIn (s : State) : (s.acknowledge).keyIn = s.keyIn := rfl
@[simp] theorem acknowledge_saltIn (s : State) : (s.acknowledge).saltIn = s.saltIn := rfl
@[simp] theorem acknowledge_persIn (s : State) : (s.acknowledge).persIn = s.persIn := rfl
@[simp] theorem acknowledge_din (s : State) : (s.acknowledge).din = s.din := rfl
@[simp] theorem acknowledge_out (s : State) : (s.acknowledge).out = s.out := rfl
@[simp] theorem acknowledge_pending (s : State) : (s.acknowledge).pending = s.pending := rfl
@[simp] theorem acknowledge_reads (s : State) : (s.acknowledge).reads = s.reads := rfl

@[simp] theorem compressFull_h (s : State) : (s.compressFull).h = compress s.h s.buffer (add128 s.t 128) false := rfl
@[simp] theorem compressFull_t (s : State) : (s.compressFull).t = add128 s.t 128 := rfl
@[simp] theorem compressFull_buffer (s : State) : (s.compressFull).buffer = zeros 128 := rfl
@[simp] theorem compressFull_bufferLength (s : State) : (s.compressFull).bufferLength = 0 := rfl
@[simp] theorem compressFull_outputLength (s : State) : (s.compressFull).outputLength = s.outputLength := rfl
@[simp] theorem compressFull_keyLength (s : State) : (s.compressFull).keyLength = s.keyLength := rfl
@[simp] theorem compressFull_key (s : State) : (s.compressFull).key = s.key := rfl
@[simp] theorem compressFull_salt (s : State) : (s.compressFull).salt = s.salt := rfl
@[simp] theorem compressFull_personalization (s : State) : (s.compressFull).personalization = s.personalization := rfl
@[simp] theorem compressFull_finalized (s : State) : (s.compressFull).finalized = s.finalized := rfl
@[simp] theorem compressFull_configured (s : State) : (s.compressFull).configured = s.configured := rfl
@[simp] theorem compressFull_lastErr (s : State) : (s.compressFull).lastErr = s.lastErr := rfl
@[simp] theorem compressFull_errSticky (s : State) : (s.compressFull).errSticky = s.errSticky := rfl
@[simp] theorem compressFull_keyIn (s : State) : (s.compressFull).keyIn = s.keyIn := rfl
@[simp] theorem compressFull_saltIn (s : State) : (s.compressFull).saltIn = s.saltIn := rfl
@[simp] theorem compressFull_persIn (s : State) : (s.compressFull).persIn = s.persIn := rfl
@[simp] theorem compressFull_din (s : State) : (s.compressFull).din = s.din := rfl
@[simp] theorem compressFull_out (s : State) : (s.compressFull).out = s.out := rfl
@[simp] theorem compressFull_pending (s : State) : (s.compressFull).pending = s.pending := rfl
@[simp] theorem compressFull_reads (s : State) : (s.compressFull).reads = s.reads := rfl

@[simp] theorem placeByte_h (s : State) (b : Byte) : (s.placeByte b).h = s.h := rfl
@[simp] theorem placeByte_t (s : State) (b : Byte) : (s.placeByte b).t = s.t := rfl
@[simp] theorem placeByte_buffer (s : State) (b : Byte) :
    (s.placeByte b).buffer = s.buffer.setIfInBounds s.bufferLength b := rfl
@[simp] theorem placeByte_bufferLength (s : State) (b : Byte) : (s.placeByte b).bufferLength = s.bufferLength + 1 := rfl
@[simp] theorem placeByte_outputLength (s : State) (b : Byte) : (s.placeByte b).outputLength = s.outputLength := rfl
@[simp] theorem placeByte_keyLength (s : State) (b : Byte) : (s.placeByte b).keyLength = s.keyLength := rfl
@[simp] theorem placeByte_key (s : State) (b : Byte) : (s.placeByte b).key = s.key := rfl
@[simp] theorem placeByte_salt (s : State) (b : Byte) : (s.placeByte b).salt = s.salt := rfl
@[simp] theorem placeByte_personalization (s : State) (b : Byte) : (s.placeByte b).personalization = s.personalization := rfl
@[simp] theorem placeByte_finalized (s : State) (b : Byte) : (s.placeByte b).finalized = s.finalized := rfl
@[simp] theorem placeByte_configured (s : State) (b : Byte) : (s.placeByte b).configured = s.configured := rfl
@[simp] theorem placeByte_lastErr (s : State) (b : Byte) : (s.placeByte b).lastErr = s.lastErr := rfl
@[simp] theorem placeByte_errSticky (s : State) (b : Byte) : (s.placeByte b).errSticky = s.errSticky := rfl
@[simp] theorem placeByte_keyIn (s : State) (b : Byte) : (s.placeByte b).keyIn = s.keyIn := rfl
@[simp] theorem placeByte_saltIn (s : State) (b : Byte) : (s.placeByte b).saltIn = s.saltIn := rfl
@[simp] theorem placeByte_persIn (s : State) (b : Byte) : (s.placeByte b).persIn = s.persIn := rfl
@[simp] theorem placeByte_din (s : State) (b : Byte) : (s.placeByte b).din = s.din := rfl
@[simp] theorem placeByte_out (s : State) (b : Byte) : (s.placeByte b).out = s.out := rfl
@[simp] theorem placeByte_pending (s : State) (b : Byte) : (s.placeByte b).pending = s.pending := rfl
@[simp] theorem placeByte_reads (s : State) (b : Byte) : (s.placeByte b).reads = s.reads := rfl

@[simp] theorem startStream_h (s : State) : (s.startStream).h = Vector.ofFn fun i => iv[i] ^^^ s.paramWords[i] := rfl
@[simp] theorem startStream_t (s : State) : (s.startStream).t = 0 := rfl
@[simp] theorem startStream_buffer (s : State) : (s.startStream).buffer = zeros 128 := rfl
@[simp] theorem startStream_bufferLength (s : State) : (s.startStream).bufferLength = 0 := rfl
@[simp] theorem startStream_outputLength (s : State) : (s.startStream).outputLength = s.outputLength := rfl
@[simp] theorem startStream_keyLength (s : State) : (s.startStream).keyLength = s.keyLength := rfl
@[simp] theorem startStream_key (s : State) : (s.startStream).key = s.key := rfl
@[simp] theorem startStream_salt (s : State) : (s.startStream).salt = s.salt := rfl
@[simp] theorem startStream_personalization (s : State) : (s.startStream).personalization = s.personalization := rfl
@[simp] theorem startStream_finalized (s : State) : (s.startStream).finalized = false := rfl
@[simp] theorem startStream_configured (s : State) : (s.startStream).configured = s.configured := rfl
@[simp] theorem startStream_lastErr (s : State) : (s.startStream).lastErr = s.lastErr := rfl
@[simp] theorem startStream_errSticky (s : State) : (s.startStream).errSticky = s.errSticky := rfl
@[simp] theorem startStream_keyIn (s : State) : (s.startStream).keyIn = s.keyIn := rfl
@[simp] theorem startStream_saltIn (s : State) : (s.startStream).saltIn = s.saltIn := rfl
@[simp] theorem startStream_persIn (s : State) : (s.startStream).persIn = s.persIn := rfl
@[simp] theorem startStream_din (s : State) : (s.startStream).din = s.din := rfl
@[simp] theorem startStream_out (s : State) : (s.startStream).out = s.out := rfl
@[simp] theorem startStream_pending (s : State) : (s.startStream).pending = s.pending := rfl
@[simp] theorem startStream_reads (s : State) : (s.startStream).reads = s.reads := rfl

@[simp] theorem configure_h (outLen keyLen saltLen persLen : Byte) (s : State) :
    (s.configure outLen keyLen saltLen persLen).h = s.h := rfl
@[simp] theorem configure_t (outLen keyLen saltLen persLen : Byte) (s : State) :
    (s.configure outLen keyLen saltLen persLen).t = s.t := rfl
@[simp] theorem configure_buffer (outLen keyLen saltLen persLen : Byte) (s : State) :
    (s.configure outLen keyLen saltLen persLen).buffer = s.buffer := rfl
@[simp] theorem configure_bufferLength (outLen keyLen saltLen persLen : Byte) (s : State) :
    (s.configure outLen keyLen saltLen persLen).bufferLength = s.bufferLength := rfl
@[simp] theorem configure_outputLength (outLen keyLen saltLen persLen : Byte) (s : State) :
    (s.configure outLen keyLen saltLen persLen).outputLength = outLen.toNat := rfl
@[simp] theorem configure_keyLength (outLen keyLen saltLen persLen : Byte) (s : State) :
    (s.configure outLen keyLen saltLen persLen).keyLength = keyLen.toNat := rfl
@[simp] theorem configure_key (outLen keyLen saltLen persLen : Byte) (s : State) :
    (s.configure outLen keyLen saltLen persLen).key = keepFirst keyLen.toNat s.keyStage := rfl
@[simp] theorem configure_salt (outLen keyLen saltLen persLen : Byte) (s : State) :
    (s.configure outLen keyLen saltLen persLen).salt = if saltLen = 16 then s.saltStage else zeros 16 := rfl
@[simp] theorem configure_personalization (outLen keyLen saltLen persLen : Byte) (s : State) :
    (s.configure outLen keyLen saltLen persLen).personalization = if persLen = 16 then s.persStage else zeros 16 := rfl
@[simp] theorem configure_finalized (outLen keyLen saltLen persLen : Byte) (s : State) :
    (s.configure outLen keyLen saltLen persLen).finalized = s.finalized := rfl
@[simp] theorem configure_configured (outLen keyLen saltLen persLen : Byte) (s : State) :
    (s.configure outLen keyLen saltLen persLen).configured = true := rfl
@[simp] theorem configure_lastErr (outLen keyLen saltLen persLen : Byte) (s : State) :
    (s.configure outLen keyLen saltLen persLen).lastErr = s.lastErr := rfl
@[simp] theorem configure_errSticky (outLen keyLen saltLen persLen : Byte) (s : State) :
    (s.configure outLen keyLen saltLen persLen).errSticky = s.errSticky := rfl
@[simp] theorem configure_keyIn (outLen keyLen saltLen persLen : Byte) (s : State) :
    (s.configure outLen keyLen saltLen persLen).keyIn = Vector.replicate 8 0 := rfl
@[simp] theorem configure_saltIn (outLen keyLen saltLen persLen : Byte) (s : State) :
    (s.configure outLen keyLen saltLen persLen).saltIn = Vector.replicate 2 0 := rfl
@[simp] theorem configure_persIn (outLen keyLen saltLen persLen : Byte) (s : State) :
    (s.configure outLen keyLen saltLen persLen).persIn = Vector.replicate 2 0 := rfl
@[simp] theorem configure_din (outLen keyLen saltLen persLen : Byte) (s : State) :
    (s.configure outLen keyLen saltLen persLen).din = s.din := rfl
@[simp] theorem configure_out (outLen keyLen saltLen persLen : Byte) (s : State) :
    (s.configure outLen keyLen saltLen persLen).out = s.out := rfl
@[simp] theorem configure_pending (outLen keyLen saltLen persLen : Byte) (s : State) :
    (s.configure outLen keyLen saltLen persLen).pending = s.pending := rfl
@[simp] theorem configure_reads (outLen keyLen saltLen persLen : Byte) (s : State) :
    (s.configure outLen keyLen saltLen persLen).reads = s.reads := rfl

@[simp] theorem compressFinal_h (s : State) :
    (s.compressFinal).h = compress s.h (keepFirst s.bufferLength s.buffer) (add128 s.t s.bufferLength) true := rfl
@[simp] theorem compressFinal_t (s : State) : (s.compressFinal).t = add128 s.t s.bufferLength := rfl
@[simp] theorem compressFinal_buffer (s : State) : (s.compressFinal).buffer = s.buffer := rfl
@[simp] theorem compressFinal_bufferLength (s : State) : (s.compressFinal).bufferLength = s.bufferLength := rfl
@[simp] theorem compressFinal_outputLength (s : State) : (s.compressFinal).outputLength = s.outputLength := rfl
@[simp] theorem compressFinal_keyLength (s : State) : (s.compressFinal).keyLength = s.keyLength := rfl
@[simp] theorem compressFinal_key (s : State) : (s.compressFinal).key = s.key := rfl
@[simp] theorem compressFinal_salt (s : State) : (s.compressFinal).salt = s.salt := rfl
@[simp] theorem compressFinal_personalization (s : State) : (s.compressFinal).personalization = s.personalization := rfl
@[simp] theorem compressFinal_finalized (s : State) : (s.compressFinal).finalized = s.finalized := rfl
@[simp] theorem compressFinal_configured (s : State) : (s.compressFinal).configured = s.configured := rfl
@[simp] theorem compressFinal_lastErr (s : State) : (s.compressFinal).lastErr = s.lastErr := rfl
@[simp] theorem compressFinal_errSticky (s : State) : (s.compressFinal).errSticky = s.errSticky := rfl
@[simp] theorem compressFinal_keyIn (s : State) : (s.compressFinal).keyIn = s.keyIn := rfl
@[simp] theorem compressFinal_saltIn (s : State) : (s.compressFinal).saltIn = s.saltIn := rfl
@[simp] theorem compressFinal_persIn (s : State) : (s.compressFinal).persIn = s.persIn := rfl
@[simp] theorem compressFinal_din (s : State) : (s.compressFinal).din = s.din := rfl
@[simp] theorem compressFinal_out (s : State) : (s.compressFinal).out = s.out := rfl
@[simp] theorem compressFinal_pending (s : State) : (s.compressFinal).pending = s.pending := rfl
@[simp] theorem compressFinal_reads (s : State) : (s.compressFinal).reads = s.reads := rfl

@[simp] theorem writeOut_h (offset : Nat) (s : State) : (s.writeOut offset).h = s.h := by unfold writeOut; rfl
@[simp] theorem writeOut_t (offset : Nat) (s : State) : (s.writeOut offset).t = s.t := by unfold writeOut; rfl
@[simp] theorem writeOut_buffer (offset : Nat) (s : State) : (s.writeOut offset).buffer = s.buffer := by unfold writeOut; rfl
@[simp] theorem writeOut_bufferLength (offset : Nat) (s : State) :
    (s.writeOut offset).bufferLength = s.bufferLength := by unfold writeOut; rfl
@[simp] theorem writeOut_outputLength (offset : Nat) (s : State) :
    (s.writeOut offset).outputLength = s.outputLength := by unfold writeOut; rfl
@[simp] theorem writeOut_keyLength (offset : Nat) (s : State) :
    (s.writeOut offset).keyLength = s.keyLength := by unfold writeOut; rfl
@[simp] theorem writeOut_key (offset : Nat) (s : State) : (s.writeOut offset).key = s.key := by unfold writeOut; rfl
@[simp] theorem writeOut_salt (offset : Nat) (s : State) : (s.writeOut offset).salt = s.salt := by unfold writeOut; rfl
@[simp] theorem writeOut_personalization (offset : Nat) (s : State) :
    (s.writeOut offset).personalization = s.personalization := by unfold writeOut; rfl
@[simp] theorem writeOut_finalized (offset : Nat) (s : State) :
    (s.writeOut offset).finalized = s.finalized := by unfold writeOut; rfl
@[simp] theorem writeOut_configured (offset : Nat) (s : State) :
    (s.writeOut offset).configured = s.configured := by unfold writeOut; rfl
@[simp] theorem writeOut_lastErr (offset : Nat) (s : State) :
    (s.writeOut offset).lastErr = s.lastErr := by unfold writeOut; rfl
@[simp] theorem writeOut_errSticky (offset : Nat) (s : State) :
    (s.writeOut offset).errSticky = s.errSticky := by unfold writeOut; rfl
@[simp] theorem writeOut_keyIn (offset : Nat) (s : State) : (s.writeOut offset).keyIn = s.keyIn := by unfold writeOut; rfl
@[simp] theorem writeOut_saltIn (offset : Nat) (s : State) : (s.writeOut offset).saltIn = s.saltIn := by unfold writeOut; rfl
@[simp] theorem writeOut_persIn (offset : Nat) (s : State) : (s.writeOut offset).persIn = s.persIn := by unfold writeOut; rfl
@[simp] theorem writeOut_din (offset : Nat) (s : State) : (s.writeOut offset).din = s.din := by unfold writeOut; rfl
@[simp] theorem writeOut_out (offset : Nat) (s : State) :
    (s.writeOut offset).out = spliceOut offset s.outputLength (toBytes s.h) s.out := rfl
@[simp] theorem writeOut_pending (offset : Nat) (s : State) :
    (s.writeOut offset).pending = s.pending := by unfold writeOut; rfl
@[simp] theorem writeOut_reads (offset : Nat) (s : State) : (s.writeOut offset).reads = s.reads := by unfold writeOut; rfl

@[simp] theorem closeStream_h (s : State) : (s.closeStream).h = s.h := rfl
@[simp] theorem closeStream_t (s : State) : (s.closeStream).t = s.t := rfl
@[simp] theorem closeStream_buffer (s : State) : (s.closeStream).buffer = zeros 128 := rfl
@[simp] theorem closeStream_bufferLength (s : State) : (s.closeStream).bufferLength = 0 := rfl
@[simp] theorem closeStream_outputLength (s : State) : (s.closeStream).outputLength = s.outputLength := rfl
@[simp] theorem closeStream_keyLength (s : State) : (s.closeStream).keyLength = s.keyLength := rfl
@[simp] theorem closeStream_key (s : State) : (s.closeStream).key = s.key := rfl
@[simp] theorem closeStream_salt (s : State) : (s.closeStream).salt = s.salt := rfl
@[simp] theorem closeStream_personalization (s : State) : (s.closeStream).personalization = s.personalization := rfl
@[simp] theorem closeStream_finalized (s : State) : (s.closeStream).finalized = true := rfl
@[simp] theorem closeStream_configured (s : State) : (s.closeStream).configured = s.configured := rfl
@[simp] theorem closeStream_lastErr (s : State) : (s.closeStream).lastErr = s.lastErr := rfl
@[simp] theorem closeStream_errSticky (s : State) : (s.closeStream).errSticky = s.errSticky := rfl
@[simp] theorem closeStream_keyIn (s : State) : (s.closeStream).keyIn = s.keyIn := rfl
@[simp] theorem closeStream_saltIn (s : State) : (s.closeStream).saltIn = s.saltIn := rfl
@[simp] theorem closeStream_persIn (s : State) : (s.closeStream).persIn = s.persIn := rfl
@[simp] theorem closeStream_din (s : State) : (s.closeStream).din = s.din := rfl
@[simp] theorem closeStream_out (s : State) : (s.closeStream).out = s.out := rfl
@[simp] theorem closeStream_pending (s : State) : (s.closeStream).pending = s.pending := rfl
@[simp] theorem closeStream_reads (s : State) : (s.closeStream).reads = s.reads := rfl

@[simp] theorem wipeStream_h (s : State) : (s.wipeStream).h = Vector.replicate 8 0 := rfl
@[simp] theorem wipeStream_t (s : State) : (s.wipeStream).t = 0 := rfl
@[simp] theorem wipeStream_buffer (s : State) : (s.wipeStream).buffer = zeros 128 := rfl
@[simp] theorem wipeStream_bufferLength (s : State) : (s.wipeStream).bufferLength = 0 := rfl
@[simp] theorem wipeStream_outputLength (s : State) : (s.wipeStream).outputLength = s.outputLength := rfl
@[simp] theorem wipeStream_keyLength (s : State) : (s.wipeStream).keyLength = s.keyLength := rfl
@[simp] theorem wipeStream_key (s : State) : (s.wipeStream).key = s.key := rfl
@[simp] theorem wipeStream_salt (s : State) : (s.wipeStream).salt = s.salt := rfl
@[simp] theorem wipeStream_personalization (s : State) : (s.wipeStream).personalization = s.personalization := rfl
@[simp] theorem wipeStream_finalized (s : State) : (s.wipeStream).finalized = s.finalized := rfl
@[simp] theorem wipeStream_configured (s : State) : (s.wipeStream).configured = s.configured := rfl
@[simp] theorem wipeStream_lastErr (s : State) : (s.wipeStream).lastErr = s.lastErr := rfl
@[simp] theorem wipeStream_errSticky (s : State) : (s.wipeStream).errSticky = s.errSticky := rfl
@[simp] theorem wipeStream_keyIn (s : State) : (s.wipeStream).keyIn = s.keyIn := rfl
@[simp] theorem wipeStream_saltIn (s : State) : (s.wipeStream).saltIn = s.saltIn := rfl
@[simp] theorem wipeStream_persIn (s : State) : (s.wipeStream).persIn = s.persIn := rfl
@[simp] theorem wipeStream_din (s : State) : (s.wipeStream).din = s.din := rfl
@[simp] theorem wipeStream_out (s : State) : (s.wipeStream).out = s.out := rfl
@[simp] theorem wipeStream_pending (s : State) : (s.wipeStream).pending = s.pending := rfl
@[simp] theorem wipeStream_reads (s : State) : (s.wipeStream).reads = s.reads := rfl

@[simp] theorem eraseKey_h (s : State) : (s.eraseKey).h = s.h := rfl
@[simp] theorem eraseKey_t (s : State) : (s.eraseKey).t = s.t := rfl
@[simp] theorem eraseKey_buffer (s : State) :
    (s.eraseKey).buffer = if s.keyLength > 0 ∧ s.t = 0 then zeros 128 else s.buffer := rfl
@[simp] theorem eraseKey_bufferLength (s : State) : (s.eraseKey).bufferLength = s.bufferLength := rfl
@[simp] theorem eraseKey_outputLength (s : State) : (s.eraseKey).outputLength = s.outputLength := rfl
@[simp] theorem eraseKey_keyLength (s : State) : (s.eraseKey).keyLength = s.keyLength := rfl
@[simp] theorem eraseKey_key (s : State) : (s.eraseKey).key = zeros 64 := rfl
@[simp] theorem eraseKey_salt (s : State) : (s.eraseKey).salt = s.salt := rfl
@[simp] theorem eraseKey_personalization (s : State) : (s.eraseKey).personalization = s.personalization := rfl
@[simp] theorem eraseKey_finalized (s : State) : (s.eraseKey).finalized = s.finalized := rfl
@[simp] theorem eraseKey_configured (s : State) : (s.eraseKey).configured = s.configured := rfl
@[simp] theorem eraseKey_lastErr (s : State) : (s.eraseKey).lastErr = s.lastErr := rfl
@[simp] theorem eraseKey_errSticky (s : State) : (s.eraseKey).errSticky = s.errSticky := rfl
@[simp] theorem eraseKey_keyIn (s : State) : (s.eraseKey).keyIn = s.keyIn := rfl
@[simp] theorem eraseKey_saltIn (s : State) : (s.eraseKey).saltIn = s.saltIn := rfl
@[simp] theorem eraseKey_persIn (s : State) : (s.eraseKey).persIn = s.persIn := rfl
@[simp] theorem eraseKey_din (s : State) : (s.eraseKey).din = s.din := rfl
@[simp] theorem eraseKey_out (s : State) : (s.eraseKey).out = s.out := rfl
@[simp] theorem eraseKey_pending (s : State) : (s.eraseKey).pending = s.pending := rfl
@[simp] theorem eraseKey_reads (s : State) : (s.eraseKey).reads = s.reads := rfl

@[simp] theorem eraseSalt_h (s : State) : (s.eraseSalt).h = s.h := rfl
@[simp] theorem eraseSalt_t (s : State) : (s.eraseSalt).t = s.t := rfl
@[simp] theorem eraseSalt_buffer (s : State) : (s.eraseSalt).buffer = s.buffer := rfl
@[simp] theorem eraseSalt_bufferLength (s : State) : (s.eraseSalt).bufferLength = s.bufferLength := rfl
@[simp] theorem eraseSalt_outputLength (s : State) : (s.eraseSalt).outputLength = s.outputLength := rfl
@[simp] theorem eraseSalt_keyLength (s : State) : (s.eraseSalt).keyLength = s.keyLength := rfl
@[simp] theorem eraseSalt_key (s : State) : (s.eraseSalt).key = s.key := rfl
@[simp] theorem eraseSalt_salt (s : State) : (s.eraseSalt).salt = zeros 16 := rfl
@[simp] theorem eraseSalt_personalization (s : State) : (s.eraseSalt).personalization = s.personalization := rfl
@[simp] theorem eraseSalt_finalized (s : State) : (s.eraseSalt).finalized = s.finalized := rfl
@[simp] theorem eraseSalt_configured (s : State) : (s.eraseSalt).configured = s.configured := rfl
@[simp] theorem eraseSalt_lastErr (s : State) : (s.eraseSalt).lastErr = s.lastErr := rfl
@[simp] theorem eraseSalt_errSticky (s : State) : (s.eraseSalt).errSticky = s.errSticky := rfl
@[simp] theorem eraseSalt_keyIn (s : State) : (s.eraseSalt).keyIn = s.keyIn := rfl
@[simp] theorem eraseSalt_saltIn (s : State) : (s.eraseSalt).saltIn = s.saltIn := rfl
@[simp] theorem eraseSalt_persIn (s : State) : (s.eraseSalt).persIn = s.persIn := rfl
@[simp] theorem eraseSalt_din (s : State) : (s.eraseSalt).din = s.din := rfl
@[simp] theorem eraseSalt_out (s : State) : (s.eraseSalt).out = s.out := rfl
@[simp] theorem eraseSalt_pending (s : State) : (s.eraseSalt).pending = s.pending := rfl
@[simp] theorem eraseSalt_reads (s : State) : (s.eraseSalt).reads = s.reads := rfl

end Sys2Proof.Machine.State
end

