-- ==== Sys2Proof/Laws/Ops.lean ====
section
/-! SUPPORT. What each shared operation of Machine/Ops.lean does, said once: Absorb (41_update.md R150, R153, R154), Initialize
(40_initialization.md R123 to R125). -/

namespace Sys2Proof.Machine

namespace State

theorem absorb_nil (s : State) : s.absorb [] = s := rfl

theorem absorb_cons (s : State) (b : Byte) (bs : List Byte) : s.absorb (b :: bs) = (s.absorbByte b).absorb bs := rfl

/-- Absorbing chunk after chunk is absorbing their concatenation (R153). -/
theorem absorb_append (s : State) (a b : List Byte) : s.absorb (a ++ b) = (s.absorb a).absorb b := by
  simp [absorb]

/-! Absorb changes the chaining state, the counter and the buffer, and nothing else. -/

theorem absorbByte_outputLength (s : State) (b : Byte) : (s.absorbByte b).outputLength = s.outputLength := by
  unfold absorbByte; split <;> simp

@[simp] theorem absorb_outputLength (s : State) (bs : List Byte) : (s.absorb bs).outputLength = s.outputLength := by
  induction bs generalizing s with
  | nil => rfl
  | cons b bs ih => rw [absorb_cons, ih, absorbByte_outputLength]

theorem absorbByte_keyLength (s : State) (b : Byte) : (s.absorbByte b).keyLength = s.keyLength := by
  unfold absorbByte; split <;> simp

@[simp] theorem absorb_keyLength (s : State) (bs : List Byte) : (s.absorb bs).keyLength = s.keyLength := by
  induction bs generalizing s with
  | nil => rfl
  | cons b bs ih => rw [absorb_cons, ih, absorbByte_keyLength]

theorem absorbByte_key (s : State) (b : Byte) : (s.absorbByte b).key = s.key := by
  unfold absorbByte; split <;> simp

@[simp] theorem absorb_key (s : State) (bs : List Byte) : (s.absorb bs).key = s.key := by
  induction bs generalizing s with
  | nil => rfl
  | cons b bs ih => rw [absorb_cons, ih, absorbByte_key]

theorem absorbByte_salt (s : State) (b : Byte) : (s.absorbByte b).salt = s.salt := by
  unfold absorbByte; split <;> simp

@[simp] theorem absorb_salt (s : State) (bs : List Byte) : (s.absorb bs).salt = s.salt := by
  induction bs generalizing s with
  | nil => rfl
  | cons b bs ih => rw [absorb_cons, ih, absorbByte_salt]

theorem absorbByte_personalization (s : State) (b : Byte) : (s.absorbByte b).personalization = s.personalization := by
  unfold absorbByte; split <;> simp

@[simp] theorem absorb_personalization (s : State) (bs : List Byte) : (s.absorb bs).personalization = s.personalization := by
  induction bs generalizing s with
  | nil => rfl
  | cons b bs ih => rw [absorb_cons, ih, absorbByte_personalization]

theorem absorbByte_finalized (s : State) (b : Byte) : (s.absorbByte b).finalized = s.finalized := by
  unfold absorbByte; split <;> simp

@[simp] theorem absorb_finalized (s : State) (bs : List Byte) : (s.absorb bs).finalized = s.finalized := by
  induction bs generalizing s with
  | nil => rfl
  | cons b bs ih => rw [absorb_cons, ih, absorbByte_finalized]

theorem absorbByte_configured (s : State) (b : Byte) : (s.absorbByte b).configured = s.configured := by
  unfold absorbByte; split <;> simp

@[simp] theorem absorb_configured (s : State) (bs : List Byte) : (s.absorb bs).configured = s.configured := by
  induction bs generalizing s with
  | nil => rfl
  | cons b bs ih => rw [absorb_cons, ih, absorbByte_configured]

theorem absorbByte_lastErr (s : State) (b : Byte) : (s.absorbByte b).lastErr = s.lastErr := by
  unfold absorbByte; split <;> simp

@[simp] theorem absorb_lastErr (s : State) (bs : List Byte) : (s.absorb bs).lastErr = s.lastErr := by
  induction bs generalizing s with
  | nil => rfl
  | cons b bs ih => rw [absorb_cons, ih, absorbByte_lastErr]

theorem absorbByte_errSticky (s : State) (b : Byte) : (s.absorbByte b).errSticky = s.errSticky := by
  unfold absorbByte; split <;> simp

@[simp] theorem absorb_errSticky (s : State) (bs : List Byte) : (s.absorb bs).errSticky = s.errSticky := by
  induction bs generalizing s with
  | nil => rfl
  | cons b bs ih => rw [absorb_cons, ih, absorbByte_errSticky]

theorem absorbByte_keyIn (s : State) (b : Byte) : (s.absorbByte b).keyIn = s.keyIn := by
  unfold absorbByte; split <;> simp

@[simp] theorem absorb_keyIn (s : State) (bs : List Byte) : (s.absorb bs).keyIn = s.keyIn := by
  induction bs generalizing s with
  | nil => rfl
  | cons b bs ih => rw [absorb_cons, ih, absorbByte_keyIn]

theorem absorbByte_saltIn (s : State) (b : Byte) : (s.absorbByte b).saltIn = s.saltIn := by
  unfold absorbByte; split <;> simp

@[simp] theorem absorb_saltIn (s : State) (bs : List Byte) : (s.absorb bs).saltIn = s.saltIn := by
  induction bs generalizing s with
  | nil => rfl
  | cons b bs ih => rw [absorb_cons, ih, absorbByte_saltIn]

theorem absorbByte_persIn (s : State) (b : Byte) : (s.absorbByte b).persIn = s.persIn := by
  unfold absorbByte; split <;> simp

@[simp] theorem absorb_persIn (s : State) (bs : List Byte) : (s.absorb bs).persIn = s.persIn := by
  induction bs generalizing s with
  | nil => rfl
  | cons b bs ih => rw [absorb_cons, ih, absorbByte_persIn]

theorem absorbByte_din (s : State) (b : Byte) : (s.absorbByte b).din = s.din := by
  unfold absorbByte; split <;> simp

@[simp] theorem absorb_din (s : State) (bs : List Byte) : (s.absorb bs).din = s.din := by
  induction bs generalizing s with
  | nil => rfl
  | cons b bs ih => rw [absorb_cons, ih, absorbByte_din]

theorem absorbByte_out (s : State) (b : Byte) : (s.absorbByte b).out = s.out := by
  unfold absorbByte; split <;> simp

@[simp] theorem absorb_out (s : State) (bs : List Byte) : (s.absorb bs).out = s.out := by
  induction bs generalizing s with
  | nil => rfl
  | cons b bs ih => rw [absorb_cons, ih, absorbByte_out]

theorem absorbByte_pending (s : State) (b : Byte) : (s.absorbByte b).pending = s.pending := by
  unfold absorbByte; split <;> simp

@[simp] theorem absorb_pending (s : State) (bs : List Byte) : (s.absorb bs).pending = s.pending := by
  induction bs generalizing s with
  | nil => rfl
  | cons b bs ih => rw [absorb_cons, ih, absorbByte_pending]

theorem absorbByte_reads (s : State) (b : Byte) : (s.absorbByte b).reads = s.reads := by
  unfold absorbByte; split <;> simp

@[simp] theorem absorb_reads (s : State) (bs : List Byte) : (s.absorb bs).reads = s.reads := by
  induction bs generalizing s with
  | nil => rfl
  | cons b bs ih => rw [absorb_cons, ih, absorbByte_reads]

/-- A byte placed in a buffer that is not full only joins it (R150). -/
theorem absorbByte_of_lt (s : State) (b : Byte) (h : s.bufferLength < 128) : s.absorbByte b = s.placeByte b := by
  unfold absorbByte
  rw [if_neg (by omega)]

/-- A byte that finds the buffer full first has it compressed as a non-final block (R150, R154). -/
theorem absorb_of_full (s : State) (bs : List Byte) (hfull : s.bufferLength = 128) (hne : bs ≠ []) :
    s.absorb bs = s.compressFull.absorb bs := by
  cases bs with
  | nil => exact absurd rfl hne
  | cons b bs =>
    rw [absorb_cons, absorb_cons]
    congr 1
    unfold absorbByte
    rw [if_pos hfull, if_neg (by simp)]

/-- Absorb keeps the buffer length within 0..128 (10_state.md R26). -/
theorem absorb_bufferLength_le (s : State) (bs : List Byte) (h : s.bufferLength ≤ 128) :
    (s.absorb bs).bufferLength ≤ 128 := by
  induction bs generalizing s with
  | nil => exact h
  | cons b bs ih =>
    rw [absorb_cons]
    apply ih
    unfold absorbByte
    split
    · simp
    · rw [placeByte_bufferLength]
      omega

/-- Bytes that fit into the buffer join it behind the bytes it holds; nothing is compressed (R150). -/
theorem absorb_fits (s : State) (bs : List Byte) (h : s.bufferLength + bs.length ≤ 128) :
    (s.absorb bs).h = s.h ∧ (s.absorb bs).t = s.t ∧ (s.absorb bs).bufferLength = s.bufferLength + bs.length ∧
      ∀ i : Fin 128, (s.absorb bs).buffer[i] =
        if s.bufferLength ≤ i.val ∧ i.val < s.bufferLength + bs.length then bs.getD (i.val - s.bufferLength) 0
        else s.buffer[i] := by
  induction bs generalizing s with
  | nil => exact ⟨rfl, rfl, rfl, fun i => by rw [if_neg (by simp only [List.length_nil]; omega)]; rfl⟩
  | cons b bs ih =>
    rw [List.length_cons] at h
    have hb := ih (s.placeByte b) (by rw [placeByte_bufferLength]; omega)
    rw [absorb_cons, absorbByte_of_lt s b (by omega)]
    refine ⟨hb.1, hb.2.1, by rw [hb.2.2.1, placeByte_bufferLength, List.length_cons]; omega, fun i => ?_⟩
    rw [hb.2.2.2 i, placeByte_bufferLength, placeByte_buffer, List.length_cons]
    have hset : (s.buffer.setIfInBounds s.bufferLength b)[i] = if s.bufferLength = i.val then b else s.buffer[i] := by
      simp [Vector.getElem_setIfInBounds]
    rw [hset]
    by_cases h0 : s.bufferLength = i.val
    · rw [if_neg (by omega), if_pos h0, if_pos (by omega), h0]
      simp
    · by_cases h1 : s.bufferLength + 1 ≤ i.val ∧ i.val < s.bufferLength + 1 + bs.length
      · rw [if_pos h1, if_pos (by omega), show i.val - s.bufferLength = (i.val - (s.bufferLength + 1)) + 1 by omega]
        simp
      · rw [if_neg h1, if_neg h0, if_neg (by omega)]

/-- Initialize in one piece: the key block, if any, fills the buffer and stays there uncompressed (R123 to R125). -/
theorem runInitialize_eq (s : State) : s.runInitialize =
    { s with
      h := Vector.ofFn fun i => iv[i] ^^^ s.paramWords[i]
      t := 0
      buffer := if s.keyLength > 0 then keyBlock s.key else zeros 128
      bufferLength := if s.keyLength > 0 then 128 else 0
      finalized := false } := by
  unfold runInitialize
  split
  · have hf := absorb_fits s.startStream (keyBlock s.key).toList (by simp)
    have hb : (s.startStream.absorb (keyBlock s.key).toList).buffer = keyBlock s.key := by
      ext i hi : 1
      have := hf.2.2.2 ⟨i, hi⟩
      simpa [hi] using this
    have hl : (s.startStream.absorb (keyBlock s.key).toList).bufferLength = 128 := by
      rw [hf.2.2.1]; simp
    apply State.ext <;> simp [*]
  · rfl

end State

end Sys2Proof.Machine
end

