-- ==== Sys2Proof/Laws/Exec.lean ====
section
/-! SUPPORT. What each command does in each of its cases, and, once for all of them, every way a command can end; later proofs
cite these and never unfold a meaning. -/

namespace Sys2Proof.Machine

/-- The operands INIT accepts (40_initialization.md R120), in words. -/
theorem initAccepts_iff (a b c d : Byte) : initAccepts a b c d = true ↔
    1 ≤ a.toNat ∧ a.toNat ≤ 64 ∧ b.toNat ≤ 64 ∧ (c = 0 ∨ c = 16) ∧ (d = 0 ∨ d = 16) := by
  simp [initAccepts, and_assoc]

theorem exec_init_accepted (a b c d : Byte) (s : State) (h : initAccepts a b c d = true) :
    exec (.init a b c d) s = .next (s.configure a b c d).runInitialize.succeed := by
  simp only [exec, execInit]
  exact if_pos h

theorem exec_init_rejected (a b c d : Byte) (s : State) (h : ¬ initAccepts a b c d = true) :
    exec (.init a b c d) s = .next (s.raiseError .invalidParameter) := by
  simp only [exec, execInit]
  exact if_neg h

theorem exec_update_illegal (n : Byte) (s : State) (h : 8 < n.toNat) :
    exec (.update n) s = .next (s.raiseError .illegalCommand) := by
  simp only [exec, execUpdate]
  exact if_pos h

theorem exec_update_invalid (n : Byte) (s : State) (hn : n.toNat ≤ 8) (h : s.configured = false ∨ s.finalized = true) :
    exec (.update n) s = .next (s.raiseError .invalidState) := by
  simp only [exec, execUpdate]
  exact (if_neg (by omega)).trans (if_pos h)

theorem exec_update_open (n : Byte) (s : State) (hn : n.toNat ≤ 8) (hc : s.configured = true)
    (hf : s.finalized = false) : exec (.update n) s = .next (s.absorb (s.dinBytes n.toNat)).succeed := by
  simp only [exec, execUpdate]
  exact (if_neg (by omega)).trans (if_neg (by simp [hc, hf]))

theorem exec_digest_invalid (o : Byte) (s : State) (h : s.configured = false ∨ s.finalized = true) :
    exec (.digest o) s = .next (s.raiseError .invalidState) := by
  simp only [exec, execDigest]
  exact if_pos h

theorem exec_digest_small (o : Byte) (s : State) (hc : s.configured = true) (hf : s.finalized = false)
    (h : 64 < o.toNat + s.outputLength) : exec (.digest o) s = .next (s.raiseError .bufferTooSmall) := by
  simp only [exec, execDigest]
  exact (if_neg (by simp [hc, hf])).trans (if_pos h)

theorem exec_digest_fits (o : Byte) (s : State) (hc : s.configured = true) (hf : s.finalized = false)
    (h : o.toNat + s.outputLength ≤ 64) :
    exec (.digest o) s = .next (s.compressFinal.writeOut o.toNat).closeStream.succeed := by
  simp only [exec, execDigest]
  exact (if_neg (by simp [hc, hf])).trans (if_neg (by omega))

theorem exec_reset_invalid (s : State) (h : s.configured = false) : exec .reset s = .next (s.raiseError .invalidState) := by
  simp only [exec, execReset]
  exact if_pos h

theorem exec_reset_configured (s : State) (h : s.configured = true) :
    exec .reset s = .next s.wipeStream.runInitialize.succeed := by
  simp only [exec, execReset]
  exact if_neg (by simp [h])

theorem exec_clearKey_invalid (s : State) (h : s.configured = false) :
    exec .clearKey s = .next (s.raiseError .invalidState) := by
  simp only [exec, execClearKey]
  exact if_pos h

theorem exec_clearKey_configured (s : State) (h : s.configured = true) :
    exec .clearKey s = .next s.eraseKey.succeed := by
  simp only [exec, execClearKey]
  exact if_neg (by simp [h])

theorem exec_clearSalt_invalid (s : State) (h : s.configured = false) :
    exec .clearSalt s = .next (s.raiseError .invalidState) := by
  simp only [exec, execClearSalt]
  exact if_pos h

theorem exec_clearSalt_configured (s : State) (h : s.configured = true) :
    exec .clearSalt s = .next s.eraseSalt.succeed := by
  simp only [exec, execClearSalt]
  exact if_neg (by simp [h])

/-- Every way a command can end: it raised an error, or it is one of the seven and its conditions held. -/
theorem exec_cases (i : Instr) (s t : State) (h : exec i s = .next t) :
    (∃ e, e ≠ .ok ∧ t = s.raiseError e ∧ i ≠ .ackErr) ∨
    (∃ a b c d, i = .init a b c d ∧ initAccepts a b c d = true ∧ t = (s.configure a b c d).runInitialize.succeed) ∨
    (∃ n, i = .update n ∧ n.toNat ≤ 8 ∧ s.configured = true ∧ s.finalized = false ∧
      t = (s.absorb (s.dinBytes n.toNat)).succeed) ∨
    (∃ o, i = .digest o ∧ s.configured = true ∧ s.finalized = false ∧ o.toNat + s.outputLength ≤ 64 ∧
      t = (s.compressFinal.writeOut o.toNat).closeStream.succeed) ∨
    (i = .reset ∧ s.configured = true ∧ t = s.wipeStream.runInitialize.succeed) ∨
    (i = .clearKey ∧ s.configured = true ∧ t = s.eraseKey.succeed) ∨
    (i = .clearSalt ∧ s.configured = true ∧ t = s.eraseSalt.succeed) ∨
    (i = .ackErr ∧ t = s.acknowledge) := by
  cases i with
  | init a b c d =>
    by_cases ha : initAccepts a b c d = true
    · rw [exec_init_accepted a b c d s ha] at h
      cases h
      exact .inr (.inl ⟨a, b, c, d, rfl, ha, rfl⟩)
    · rw [exec_init_rejected a b c d s ha] at h
      cases h
      exact .inl ⟨.invalidParameter, by decide, rfl, by simp⟩
  | update n =>
    by_cases hn : 8 < n.toNat
    · rw [exec_update_illegal n s hn] at h
      cases h
      exact .inl ⟨.illegalCommand, by decide, rfl, by simp⟩
    · by_cases hs : s.configured = false ∨ s.finalized = true
      · rw [exec_update_invalid n s (by omega) hs] at h
        cases h
        exact .inl ⟨.invalidState, by decide, rfl, by simp⟩
      · simp only [not_or, Bool.not_eq_false, Bool.not_eq_true] at hs
        rw [exec_update_open n s (by omega) hs.1 hs.2] at h
        cases h
        exact .inr (.inr (.inl ⟨n, rfl, by omega, hs.1, hs.2, rfl⟩))
  | digest o =>
    by_cases hs : s.configured = false ∨ s.finalized = true
    · rw [exec_digest_invalid o s hs] at h
      cases h
      exact .inl ⟨.invalidState, by decide, rfl, by simp⟩
    · simp only [not_or, Bool.not_eq_false, Bool.not_eq_true] at hs
      by_cases ho : 64 < o.toNat + s.outputLength
      · rw [exec_digest_small o s hs.1 hs.2 ho] at h
        cases h
        exact .inl ⟨.bufferTooSmall, by decide, rfl, by simp⟩
      · rw [exec_digest_fits o s hs.1 hs.2 (by omega)] at h
        cases h
        exact .inr (.inr (.inr (.inl ⟨o, rfl, hs.1, hs.2, by omega, rfl⟩)))
  | reset =>
    cases hc : s.configured with
    | false =>
      rw [exec_reset_invalid s hc] at h
      cases h
      exact .inl ⟨.invalidState, by decide, rfl, by simp⟩
    | true =>
      rw [exec_reset_configured s hc] at h
      cases h
      exact .inr (.inr (.inr (.inr (.inl ⟨rfl, rfl, rfl⟩))))
  | clearKey =>
    cases hc : s.configured with
    | false =>
      rw [exec_clearKey_invalid s hc] at h
      cases h
      exact .inl ⟨.invalidState, by decide, rfl, by simp⟩
    | true =>
      rw [exec_clearKey_configured s hc] at h
      cases h
      exact .inr (.inr (.inr (.inr (.inr (.inl ⟨rfl, rfl, rfl⟩)))))
  | clearSalt =>
    cases hc : s.configured with
    | false =>
      rw [exec_clearSalt_invalid s hc] at h
      cases h
      exact .inl ⟨.invalidState, by decide, rfl, by simp⟩
    | true =>
      rw [exec_clearSalt_configured s hc] at h
      cases h
      exact .inr (.inr (.inr (.inr (.inr (.inr (.inl ⟨rfl, rfl, rfl⟩))))))
  | ackErr =>
    cases h
    exact .inr (.inr (.inr (.inr (.inr (.inr (.inr ⟨rfl, rfl⟩))))))

end Sys2Proof.Machine
end

