-- ==== Sys2Proof/Laws/Bus.lean ====
section
/-! SUPPORT. What one step can do, said once (20_memory.md R62 to R74, 60_exceptions.md R265), and the shape of an access by
register. -/

namespace Sys2Proof.Machine

theorem step_read (s : State) (offset : BitVec 8) (size : Nat) (rest : List Transaction)
    (h : s.pending = .read offset size :: rest) : step s = access (.read offset size) { s with pending := rest } := by
  unfold step serve
  rw [h]

theorem step_write (s : State) (offset : BitVec 8) (size : Nat) (v : Word64) (rest : List Transaction)
    (h : s.pending = .write offset size v :: rest) : step s = busWrite { s with pending := rest } offset size v := by
  unfold step serve
  rw [h]
  rfl

/-- An aligned 8-byte access names the register of its slot (R61, R62). -/
theorem selectReg_aligned (offset : BitVec 8) (h : offset.toNat % 8 = 0) :
    selectReg offset 8 = match regOfSlot (offset.toNat / 8) with
      | none => .error .reservedOffset
      | some r => .ok r := by
  unfold selectReg
  exact (if_neg (by decide)).trans (if_neg (by omega))

theorem selectReg_wrongSize (offset : BitVec 8) (size : Nat) (h : size ≠ 8) : selectReg offset size = .error .wrongSize := by
  unfold selectReg
  rw [if_pos h]

theorem selectReg_misaligned (offset : BitVec 8) (h : offset.toNat % 8 ≠ 0) : selectReg offset 8 = .error .misaligned := by
  unfold selectReg
  rw [if_neg (by decide), if_pos h]

/-- A run of one step more is that step and the run from there. -/
theorem run_succ_of_step (n : Nat) (s t : State) (h : step s = .next t) : core.run (n + 1) s = core.run n t := by
  have hc : core.step s = .next t := h
  simp only [Host.Core.run, hc]

theorem run_add (m n : Nat) (s t : State) (h : core.run m s = .next t) : core.run (m + n) s = core.run n t := by
  induction m generalizing s with
  | zero =>
    have hst : s = t := by injection h
    subst hst
    rw [Nat.zero_add]
  | succ m ih =>
    rw [show m + 1 + n = (m + n) + 1 by omega]
    simp only [Host.Core.run] at h ⊢
    cases hs : core.step s with
    | next u => rw [hs] at h; exact ih u h
    | fault r => rw [hs] at h; simp at h
    | refused r => rw [hs] at h; simp at h

/-- Every way a step can give a next state: idle, a command, an illegal command word, a DIN write, a read, or a staging
write. -/
theorem step_cases (s t : State) (h : step s = .next t) :
    (s.pending = [] ∧ t = s) ∨
    (∃ i rest, exec i { s with pending := rest } = .next t) ∨
    (∃ rest, t = ({ s with pending := rest } : State).raiseError .illegalCommand) ∨
    (∃ rest v, t = { s with pending := rest, din := v }) ∨
    (∃ rest v, t = { s with pending := rest, reads := s.reads ++ [v] }) ∨
    (∃ rest key salt pers, t = { s with pending := rest, keyIn := key, saltIn := salt, persIn := pers }) := by
  unfold step serve at h
  split at h
  · rename_i hp
    cases h
    exact .inl ⟨hp, rfl⟩
  · unfold access at h
    split at h
    · split at h
      · cases h
        exact .inr (.inr (.inr (.inr (.inl ⟨_, _, rfl⟩))))
      · cases h
    · unfold busWrite at h
      split at h
      · cases h
      · unfold writeReg at h
        split at h
        · unfold runCommand at h
          split at h
          · exact .inr (.inl ⟨_, _, h⟩)
          · cases h
            exact .inr (.inr (.inl ⟨_, rfl⟩))
        · cases h
        · cases h
          exact .inr (.inr (.inr (.inl ⟨_, _, rfl⟩)))
        · cases h
        · cases h
        · cases h
          exact .inr (.inr (.inr (.inr (.inr ⟨_, _, _, _, rfl⟩))))
        · cases h
          exact .inr (.inr (.inr (.inr (.inr ⟨_, _, _, _, rfl⟩))))
        · cases h
          exact .inr (.inr (.inr (.inr (.inr ⟨_, _, _, _, rfl⟩))))
        · cases h

end Sys2Proof.Machine
end

