-- ==== Sys2Proof/Laws/Decode.lean ====
section
/-! SUPPORT. The fields of a command word and the word put together from them (30_encoding.md R91). -/

namespace Sys2Proof

/-- Each field of a packed word is what was packed there, and RSV is 0. -/
theorem fields_packFields (op a b c d : Byte) :
    opField (packFields op a b c d) = op ∧ f1Field (packFields op a b c d) = a ∧ f2Field (packFields op a b c d) = b ∧
      f3Field (packFields op a b c d) = c ∧ f4Field (packFields op a b c d) = d ∧
      rsvField (packFields op a b c d) = 0 := by
  refine ⟨?_, ?_, ?_, ?_, ?_, ?_⟩ <;> apply BitVec.eq_of_getLsbD_eq <;> intro i hi <;>
    simp only [opField, f1Field, f2Field, f3Field, f4Field, rsvField, packFields, placeField] <;>
    interval_cases i <;> simp

@[simp] theorem opField_packFields (op a b c d : Byte) : opField (packFields op a b c d) = op :=
  (fields_packFields op a b c d).1

@[simp] theorem f1Field_packFields (op a b c d : Byte) : f1Field (packFields op a b c d) = a :=
  (fields_packFields op a b c d).2.1

@[simp] theorem f2Field_packFields (op a b c d : Byte) : f2Field (packFields op a b c d) = b :=
  (fields_packFields op a b c d).2.2.1

@[simp] theorem f3Field_packFields (op a b c d : Byte) : f3Field (packFields op a b c d) = c :=
  (fields_packFields op a b c d).2.2.2.1

@[simp] theorem f4Field_packFields (op a b c d : Byte) : f4Field (packFields op a b c d) = d :=
  (fields_packFields op a b c d).2.2.2.2.1

@[simp] theorem rsvField_packFields (op a b c d : Byte) : rsvField (packFields op a b c d) = 0 :=
  (fields_packFields op a b c d).2.2.2.2.2

theorem tailClear_iff (w : Word64) : tailClear w = true ↔ f2Field w = 0 ∧ f3Field w = 0 ∧ f4Field w = 0 := by
  simp [tailClear, and_assoc]

theorem operandsClear_iff (w : Word64) :
    operandsClear w = true ↔ f1Field w = 0 ∧ f2Field w = 0 ∧ f3Field w = 0 ∧ f4Field w = 0 := by
  simp [operandsClear, tailClear_iff]

/-- Two command words with equal fields are equal: the six fields make up the whole word. -/
theorem eq_of_fields_eq (x y : Word64) (hop : opField x = opField y) (h1 : f1Field x = f1Field y)
    (h2 : f2Field x = f2Field y) (h3 : f3Field x = f3Field y) (h4 : f4Field x = f4Field y)
    (hr : rsvField x = rsvField y) : x = y := by
  apply BitVec.eq_of_getLsbD_eq
  intro i hi
  have ho := congrArg (fun b : Byte => b.getLsbD i) hop
  have e1 := congrArg (fun b : Byte => b.getLsbD (i - 8)) h1
  have e2 := congrArg (fun b : Byte => b.getLsbD (i - 16)) h2
  have e3 := congrArg (fun b : Byte => b.getLsbD (i - 24)) h3
  have e4 := congrArg (fun b : Byte => b.getLsbD (i - 32)) h4
  have er := congrArg (fun b : BitVec 24 => b.getLsbD (i - 40)) hr
  simp only [opField, f1Field, f2Field, f3Field, f4Field, rsvField, BitVec.getLsbD_extractLsb'] at ho e1 e2 e3 e4 er
  interval_cases i <;> simp_all

/-- A bare command decodes to itself alone, and only when no operand field is set. -/
theorem bareCommand_eq_ok (w : Word64) (i j : Instr) : bareCommand w i = .ok j ↔ operandsClear w = true ∧ i = j := by
  unfold bareCommand
  split <;> simp_all

end Sys2Proof
end

