-- ==== Sys2Proof/Laws/Mixer.lean ====
section
/-! SUPPORT. What half a mixer does to each word of the working vector (42_compression.md R175), and the rotation of
00_scope.md R9. -/

namespace Sys2Proof.Machine

/-- R9's rotation is the library's, for the amounts R175 uses. -/
theorem rotr64_eq_rotateRight (x : Word64) (n : Nat) (h : n < 64) : rotr64 x n = x.rotateRight n := by
  unfold rotr64
  rw [BitVec.rotateRight_def, Nat.mod_eq_of_lt h]

theorem getElem_set_self (v : Vector Word64 16) (i : Fin 16) (x : Word64) : (v.set i x)[i] = x := by simp

theorem getElem_set_other (v : Vector Word64 16) (i j : Fin 16) (x : Word64) (h : j ≠ i) : (v.set i x)[j] = v[j] := by
  have hv : i.val ≠ j.val := fun e => h (Fin.ext e.symm)
  simp [hv]

/-- Half a mixer on four distinct words: the four words it writes, and that it writes no other. -/
theorem mixHalf_spec (a b c d : Fin 16) (x : Word64) (r1 r2 : Nat) (v : Vector Word64 16)
    (hab : a ≠ b) (hac : a ≠ c) (had : a ≠ d) (hbc : b ≠ c) (hbd : b ≠ d) (hcd : c ≠ d) :
    (mixHalf a b c d x r1 r2 v)[a] = v[a] + v[b] + x ∧
    (mixHalf a b c d x r1 r2 v)[d] = rotr64 (v[d] ^^^ (v[a] + v[b] + x)) r1 ∧
    (mixHalf a b c d x r1 r2 v)[c] = v[c] + rotr64 (v[d] ^^^ (v[a] + v[b] + x)) r1 ∧
    (mixHalf a b c d x r1 r2 v)[b] = rotr64 (v[b] ^^^ (v[c] + rotr64 (v[d] ^^^ (v[a] + v[b] + x)) r1)) r2 ∧
    ∀ i : Fin 16, i ≠ a → i ≠ b → i ≠ c → i ≠ d → (mixHalf a b c d x r1 r2 v)[i] = v[i] := by
  unfold mixHalf
  refine ⟨?_, ?_, ?_, ?_, fun i ia ib ic id => ?_⟩
  · simp only [getElem_set_other _ _ _ _ hab, getElem_set_other _ _ _ _ hac, getElem_set_other _ _ _ _ had, getElem_set_self]
  · simp only [getElem_set_other _ _ _ _ hbd.symm, getElem_set_other _ _ _ _ hcd.symm, getElem_set_self,
      getElem_set_other _ _ _ _ had.symm]
  · simp only [getElem_set_other _ _ _ _ hbc.symm, getElem_set_self, getElem_set_other _ _ _ _ hcd,
      getElem_set_other _ _ _ _ hac.symm, getElem_set_other _ _ _ _ had.symm]
  · simp only [getElem_set_self, getElem_set_other _ _ _ _ hbc, getElem_set_other _ _ _ _ hbd,
      getElem_set_other _ _ _ _ hab.symm, getElem_set_other _ _ _ _ hcd, getElem_set_other _ _ _ _ hac.symm,
      getElem_set_other _ _ _ _ had.symm]
  · simp only [getElem_set_other _ _ _ _ ia, getElem_set_other _ _ _ _ ib, getElem_set_other _ _ _ _ ic,
      getElem_set_other _ _ _ _ id]

end Sys2Proof.Machine
end

