-- ==== Sys2Proof/Laws/PerInstr.lean ====
section
/-! SUPPORT. Statements about every command as syntax, one lemma per constructor: the fields of its word (30_encoding.md R91,
R93). -/

namespace Sys2Proof

/-- The opcode of a command (R93). -/
def Instr.opcode : Instr → Byte
  | .init _ _ _ _ => 0x01
  | .update _ => 0x02
  | .digest _ => 0x03
  | .reset => 0x04
  | .clearKey => 0x05
  | .clearSalt => 0x06
  | .ackErr => 0x07

namespace Laws.EncodeShape

/-- The word of a command carries its opcode in OP and zeros in RSV. -/
def Statement (i : Instr) : Prop := opField (encode i) = i.opcode ∧ rsvField (encode i) = 0

theorem init (outLen keyLen saltLen persLen : Byte) : Statement (.init outLen keyLen saltLen persLen) :=
  ⟨opField_packFields _ _ _ _ _, rsvField_packFields _ _ _ _ _⟩

theorem update (count : Byte) : Statement (.update count) := ⟨opField_packFields _ _ _ _ _, rsvField_packFields _ _ _ _ _⟩

theorem digest (offset : Byte) : Statement (.digest offset) := ⟨opField_packFields _ _ _ _ _, rsvField_packFields _ _ _ _ _⟩

theorem reset : Statement .reset := ⟨opField_packFields _ _ _ _ _, rsvField_packFields _ _ _ _ _⟩

theorem clearKey : Statement .clearKey := ⟨opField_packFields _ _ _ _ _, rsvField_packFields _ _ _ _ _⟩

theorem clearSalt : Statement .clearSalt := ⟨opField_packFields _ _ _ _ _, rsvField_packFields _ _ _ _ _⟩

theorem ackErr : Statement .ackErr := ⟨opField_packFields _ _ _ _ _, rsvField_packFields _ _ _ _ _⟩

end Laws.EncodeShape

end Sys2Proof
end

