-- ==== Sys2Proof/Laws/Stream.lean ====
section
/-! SUPPORT. Streams: the bytes UPDATE takes from DIN, what Absorb depends on and keeps, and the output splice. -/

namespace Sys2Proof.Machine

/-- Two states hold the same stream: chaining state, counter and buffer. -/
def State.SameStream (s u : State) : Prop :=
  s.h = u.h ∧ s.t = u.t ∧ s.buffer = u.buffer ∧ s.bufferLength = u.bufferLength

namespace State

@[simp] theorem dinBytes_length (s : State) (n : Nat) : (s.dinBytes n).length = n := by simp [dinBytes]

theorem dinBytes_getD (s : State) (n i : Nat) (h : i < n) : (s.dinBytes n).getD i 0 = byteLane s.din i := by
  simp [dinBytes, List.getD_eq_getElem?_getD, h]

/-- Absorb does not look at the host's transactions, DIN or the last error code. -/
theorem absorb_congr_env (s : State) (bs : List Byte) (p : List Transaction) (d : Word64) (e : ErrorCode) :
    ({ s with pending := p, din := d, lastErr := e } : State).absorb bs =
      { s.absorb bs with pending := p, din := d, lastErr := e } := by
  induction bs generalizing s with
  | nil => rfl
  | cons b bs ih =>
    rw [absorb_cons, absorb_cons, ← ih]
    congr 1
    unfold absorbByte
    split <;> rfl

/-- What Absorb does to the stream depends on the stream alone. -/
theorem absorb_sameStream (s u : State) (bs : List Byte) (h : s.SameStream u) :
    (s.absorb bs).SameStream (u.absorb bs) := by
  induction bs generalizing s u with
  | nil => exact h
  | cons b bs ih =>
    rw [absorb_cons, absorb_cons]
    apply ih
    obtain ⟨h1, h2, h3, h4⟩ := h
    unfold absorbByte
    rw [h4]
    split <;> simp [SameStream, h1, h2, h3, h4]

/-- The final compression depends on the stream alone. -/
theorem compressFinal_sameStream (s u : State) (h : s.SameStream u) :
    s.compressFinal.h = u.compressFinal.h ∧ s.compressFinal.t = u.compressFinal.t := by
  obtain ⟨h1, h2, h3, h4⟩ := h
  simp [compressFinal, h1, h2, h3, h4]

/-- The stream Initialize starts depends on the configuration alone. -/
theorem runInitialize_sameStream (s u : State) (ho : s.outputLength = u.outputLength) (hk : s.keyLength = u.keyLength)
    (hkey : s.key = u.key) (hs : s.salt = u.salt) (hp : s.personalization = u.personalization) :
    s.runInitialize.SameStream u.runInitialize := by
  rw [runInitialize_eq, runInitialize_eq]
  simp [SameStream, paramWords, paramBlock, ho, hk, hkey, hs, hp]

theorem placeByte_tail (s : State) (b : Byte) (h : ∀ i : Fin 128, s.bufferLength ≤ i.val → s.buffer[i] = 0) :
    ∀ i : Fin 128, (s.placeByte b).bufferLength ≤ i.val → (s.placeByte b).buffer[i] = 0 := by
  intro i hi
  simp only [placeByte_bufferLength, placeByte_buffer] at hi ⊢
  have hset : (s.buffer.setIfInBounds s.bufferLength b)[i] = if s.bufferLength = i.val then b else s.buffer[i] := by
    simp [Vector.getElem_setIfInBounds]
  rw [hset, if_neg (by omega)]
  exact h i (by omega)

/-- Absorb keeps every buffer byte from the buffer length on at 0 (10_state.md R27). -/
theorem absorb_tail (s : State) (bs : List Byte) (h : ∀ i : Fin 128, s.bufferLength ≤ i.val → s.buffer[i] = 0) :
    ∀ i : Fin 128, (s.absorb bs).bufferLength ≤ i.val → (s.absorb bs).buffer[i] = 0 := by
  induction bs generalizing s with
  | nil => exact h
  | cons b bs ih =>
    rw [absorb_cons]
    apply ih
    unfold absorbByte
    split
    · apply placeByte_tail
      intro i _
      rw [compressFull_buffer]
      exact getElem_zeros 128 i.val i.isLt
    · exact placeByte_tail s b h

end State

/-- The output window after a splice, byte by byte (43_finalization.md R202). -/
theorem getElem_spliceOut (o n : Nat) (digest old : Vector Byte 64) (k : Fin 64) :
    (spliceOut o n digest old)[k] = if o ≤ k.val ∧ k.val < o + n then digest[k.val - o] else old[k] := by
  simp [spliceOut]

end Sys2Proof.Machine
end

