-- ==== Sys2Proof/Tests/Slice0.lean ====
section
/-! SUPPORT. Tests: ill-formed terms, words and values written out from spec/95_test_vectors.md and the encoding table of
30_encoding.md R93, and for every obligation with hypotheses a concrete instance that meets them (witness_…). -/

namespace Sys2Proof.Machine.Tests

set_option Elab.async false

/-! ## Helpers -/

/-- A test on the next state; a fault or a refusal fails it. -/
def ends (o : Host.Outcome State Fault Refusal) (p : State → Bool) : Bool :=
  match o with
  | .next t => p t
  | .fault _ => false
  | .refused _ => false

/-- `S.h` of V-I1, h0(64). -/
def h0 : Vector Word64 8 :=
  #v[0x6a09e667f2bdc948, 0xbb67ae8584caa73b, 0x3c6ef372fe94f82b, 0xa54ff53a5f1d36f1,
     0x510e527fade682d1, 0x9b05688c2b3e6c1f, 0x1f83d9abfb41bd6b, 0x5be0cd19137e2179]

/-- The engine after `INIT 64, 0, 0, 0` (V-I1), with `n` bytes counted as buffered. -/
def opened (n : Nat) : State :=
  { State.reset with h := h0, configured := true, outputLength := 64, bufferLength := n }

/-- A finalized engine. -/
def closed : State := { opened 0 with finalized := true }

/-- A keyed engine with its key block still buffered. -/
def keyed : State :=
  { opened 128 with keyLength := 64, key := Vector.replicate 64 7, buffer := keyBlock (Vector.replicate 64 7) }

/-- `s` about to serve the given transactions. -/
def serving (s : State) (xs : List Transaction) : State := { s with pending := xs }

/-- The bytes 00 01 02 .. of the spec's vectors. -/
def counting (n : Nat) : Vector Byte n := Vector.ofFn fun i => BitVec.ofNat 8 i.val

/-! ## Well-formedness and decoding -/

/-- R94: UPDATE 9 is no legal command; the check refuses it. -/
theorem test_update_nine_ill_formed : (Instr.update 9).wellFormed = false := by decide

theorem test_update_eight_well_formed : (Instr.update 8).wellFormed = true := by decide

/-- `INIT 64, 0, 0, 0`: OP 0x01, F1 0x40. -/
theorem test_decode_init : decode 0x0000000000004001 = .ok (.init 64 0 0 0) := by decide

/-- `INIT 32, 4, 16, 16` of program P5: F4 F3 F2 F1 OP = 10 10 04 20 01. -/
theorem test_decode_init_all_fields : decode 0x0000001010042001 = .ok (.init 32 4 16 16) := by decide

/-- R91 with four different operands: which field lies where. -/
theorem test_decode_init_order : decode 0x0000000403020101 = .ok (.init 1 2 3 4) := by decide

theorem test_decode_update : decode 0x0000000000000502 = .ok (.update 5) := by decide

/-- `DIGEST 33` of program P4. -/
theorem test_decode_digest : decode 0x0000000000002103 = .ok (.digest 33) := by decide

theorem test_decode_reset : decode 0x0000000000000004 = .ok .reset := by decide

theorem test_decode_clear_key : decode 0x0000000000000005 = .ok .clearKey := by decide

theorem test_decode_clear_salt : decode 0x0000000000000006 = .ok .clearSalt := by decide

theorem test_decode_ack_err : decode 0x0000000000000007 = .ok .ackErr := by decide

/-- The six illegal words of V-E2. -/
theorem test_decode_illegal :
    decode 0x0000000000000000 = .error .unknownOpcode ∧ decode 0x0000000000000008 = .error .unknownOpcode ∧
    decode 0x00000000000000ff = .error .unknownOpcode ∧ decode 0x0000000000000104 = .error .unusedField ∧
    decode 0x0000010000004001 = .error .reservedBits ∧ decode 0x0000000000000902 = .error .countTooLarge := by decide

/-- Bits of the first byte come first: the table's numbering of the word. -/
theorem test_decode_table_word : decodeTableWord 64 0x0000001010042001 = some (.init 32 4 16 16) := by decide

theorem test_encode_words :
    encode (.init 32 4 16 16) = 0x0000001010042001 ∧ encode (.update 5) = 0x0000000000000502 ∧
    encode (.digest 32) = 0x0000000000002003 := by decide

/-! ## The compression function -/

/-- V-G2. -/
theorem test_mixer_counting :
    mixG 0 4 8 12 1 2 #v[0, 1, 2, 3, 4, 5, 6, 7, 8, 9, 10, 11, 12, 13, 14, 15] =
      #v[0x00000c0000000907, 1, 2, 3, 0x120e181218121210, 5, 6, 7, 0x090700090c090008, 9, 10, 11,
         0x090700000c090000, 13, 14, 15] := by decide +kernel

/-- V-G4. -/
theorem test_mixer_iv :
    mixG 0 4 8 12 0x0123456789abcdef 0xfedcba9876543210
        #v[0x6a09e667f3bcc908, 0, 0, 0, 0xbb67ae8584caa73b, 0, 0, 0, 0x3c6ef372fe94f82b, 0, 0, 0,
           0xa54ff53a5f1d36f1, 0, 0, 0] =
      #v[0xdff2361073da2348, 0, 0, 0, 0x3e89bc60742d493a, 0, 0, 0, 0xa5c47f12c144179b, 0, 0, 0,
         0x0c2782dc3ed3f001, 0, 0, 0] := by decide +kernel

/-- V-X2: one round of the empty message. -/
theorem test_round_zero :
    mixRound (Vector.replicate 16 0) (workVector h0 0 true) 0 =
      #v[0x86b7dbabb0f09c18, 0x042b1d69e8a11a6c, 0xa84662dec110476d, 0x9709cc4f004ad3ca,
         0x55da1906e421bacd, 0x552d6643edbe2b38, 0xebf8498c61853a98, 0xb3df98146350f817,
         0xade0f8639f37e49b, 0xec7f4ce9c51d9f7a, 0x8232ddb10c8c3e1d, 0x75e0f3b5a9602f64,
         0xa2112e107cb01dbe, 0x91981bac4b25d069, 0x1b16c273a86528a0, 0x047f4d89b9d2ccbd] := by decide +kernel

/-- V-X7: the high half of the counter. -/
theorem test_compress_high_counter :
    compress h0 (zeros 128) 0x00000000000000010000000000000000 true =
      #v[0x48897663ec7d5a03, 0x0eac7436a7c5514b, 0x4f8efe658648b091, 0xa7f57253ff74e324,
         0x342016a553bbf732, 0x186cd452ea494c3a, 0x8b33b71fe1058955, 0x5b51508af828b07a] := by decide +kernel

/-- V-X4, serialised V-K1, the document's own digest of "hello": the only check of the constants of R171, R172 and R176. -/
theorem test_compress_hello :
    compress h0 (padBlock [0x68, 0x65, 0x6c, 0x6c, 0x6f]) 5 true =
      #v[0x31be373d9aa3cfe4, 0x99079707e80996c5, 0x1315aabf198aa6ca, 0xa6411de08550165f,
         0xbdb6ae46b1e1a15b, 0x104c21ac9eb49200, 0xbb4b9565a3a3cf3c, 0x940c62b3a2742fe5] := by decide +kernel

/-- V-U7: a carry into the high half, and a wrap modulo 2^128. -/
theorem test_counter_carry :
    add128 0x0000000000000005ffffffffffffff80 127 = 0x0000000000000005ffffffffffffffff ∧
    add128 0x0000000000000000ffffffffffffff80 128 = 0x00000000000000010000000000000000 ∧
    add128 0xffffffffffffffffffffffffffffff80 128 = 0 := by decide +kernel

/-! ## The commands, one step each -/

/-- V-I3: salt 00..0f, personalization 10..1f. -/
theorem test_init_salt_and_personalization :
    ends (exec (.init 32 0 16 16)
        { State.reset with
          saltIn := #v[0x0706050403020100, 0x0f0e0d0c0b0a0908]
          persIn := #v[0x1716151413121110, 0x1f1e1d1c1b1a1918] })
      (fun t => t.status = 0x0000000020000001 ∧ t.saltIn = Vector.replicate 2 0 ∧ t.h =
        #v[0x6a09e667f2bdc928, 0xbb67ae8584caa73b, 0x3c6ef372fe94f82b, 0xa54ff53a5f1d36f1,
           0x5608577baee483d1, 0x940b658020346517, 0x0895ccbfe853ac7b, 0x44fed00508643861]) = true := by decide +kernel

/-- V-I4: a 64-byte key is buffered and not compressed. -/
theorem test_init_keyed :
    ends (exec (.init 64 64 0 0) { State.reset with keyIn := toWords 8 (counting 64) })
      (fun t => t.status = 0x0000004040800001 ∧ t.h[0] = 0x6a09e667f2bd8948 ∧ t.key[63] = 0x3f ∧
        t.buffer[1] = 0x01 ∧ t.buffer[63] = 0x3f ∧ t.buffer[64] = 0 ∧ t.t = 0) = true := by decide +kernel

/-- V-U2 and V-U4: COUNT bytes of DIN, low byte first, the others ignored. -/
theorem test_update_takes_low_bytes :
    ends (exec (.update 3) { opened 0 with din := 0xffffffffff636261 })
      (fun t => t.status = 0x0000000040030001 ∧ t.buffer[0] = 0x61 ∧ t.buffer[2] = 0x63 ∧ t.buffer[3] = 0 ∧
        t.din = 0xffffffffff636261 ∧ t.h = h0) = true := by decide +kernel

/-- V-U3: the deferred full block is compressed by the next byte, as not-last with t = 128. -/
theorem test_update_compresses_deferred_block :
    ends (exec (.update 1) { opened 128 with buffer := counting 128, din := 0x80 })
      (fun t => t.status = 0x0000000040010001 ∧ t.t = 0x80 ∧ t.buffer[0] = 0x80 ∧ t.buffer[1] = 0 ∧ t.h =
        #v[0xffa0852a267eb85a, 0xee3e4a8743c6c30b, 0x28a559f71459300a, 0x61b0eeaf429e7346,
           0x2f194672bced790f, 0xbef760bb734a4a5d, 0x37410e514215c327, 0xe96b7e8825d0f5a7]) = true := by decide +kernel

/-- V-F1: the digest of the empty message, read back as OUT0 and OUT7. -/
theorem test_digest_empty_message :
    ends (exec (.digest 0) (opened 0))
      (fun t => t.status = 0x0000000040000003 ∧ t.t = 0 ∧ t.out[0] = 0x78 ∧ t.out[63] = 0xce ∧
        (toWords 8 t.out)[0] = 0x03590142f7026a78 ∧ (toWords 8 t.out)[7] = 0xcee29bfe1a706fd5) = true := by decide +kernel

/-- V-F7: `DIGEST 1` with OUTLEN 64. -/
theorem test_digest_does_not_fit :
    ends (exec (.digest 1) (opened 0)) (fun t => t.status = 0x0000000040000305 ∧ t.h = h0) = true := by decide +kernel

/-- V-R2: RESET discards the buffered bytes and starts the chaining state again. -/
theorem test_reset_discards_buffer :
    ends (exec .reset { opened 3 with h := Vector.replicate 8 9, buffer := padBlock [0x78, 0x79, 0x7a], t := 128 })
      (fun t => t.status = 0x0000000040000001 ∧ t.h = h0 ∧ t.buffer[0] = 0 ∧ t.t = 0) = true := by decide +kernel

/-- V-E1: RESET on an unconfigured engine. -/
theorem test_reset_unconfigured :
    ends (exec .reset State.reset) (fun t => t.status = 0x0000000000000204) = true := by decide +kernel

/-- V-C2: the buffered key block becomes zeros, its length stays. -/
theorem test_clear_key_buffered :
    ends (exec .clearKey keyed)
      (fun t => t.key[0] = 0 ∧ t.key[63] = 0 ∧ t.buffer[0] = 0 ∧ t.buffer[63] = 0 ∧
        t.status = 0x0000004040800001) = true := by decide +kernel

/-- V-C4: once the key block is compressed CLEAR_KEY leaves the buffer alone. -/
theorem test_clear_key_compressed :
    ends (exec .clearKey { keyed with t := 128, bufferLength := 3, buffer := padBlock [0x61, 0x62, 0x63] })
      (fun t => t.key[0] = 0 ∧ t.buffer[0] = 0x61 ∧ t.buffer[2] = 0x63) = true := by decide +kernel

/-- V-C5: the stored salt goes, the stream in progress stays. -/
theorem test_clear_salt :
    ends (exec .clearSalt { opened 0 with salt := counting 16 })
      (fun t => t.salt = zeros 16 ∧ t.h = h0 ∧ t.lastErr = .ok) = true := by decide +kernel

/-- V-A1: ACK_ERR from STATUS 0x0000000040000207. -/
theorem test_ack_err :
    ({ closed with lastErr := .invalidState, errSticky := true } : State).status = 0x0000000040000207 ∧
    ends (exec .ackErr { closed with lastErr := .invalidState, errSticky := true })
      (fun t => t.status = 0x0000000040000003) = true := by decide +kernel

/-- V-E3: each refused access, by name. -/
theorem test_bus_errors :
    busRead State.reset 0x000 8 = .error .readOfWriteOnly ∧ busRead State.reset 0x040 8 = .error .readOfWriteOnly ∧
    busRead State.reset 0x088 8 = .error .readOfWriteOnly ∧ busRead State.reset 0x004 8 = .error .misaligned ∧
    busRead State.reset 0x028 8 = .error .reservedOffset ∧ busRead State.reset 0x008 4 = .error .wrongSize ∧
    selectReg 0x0A0 8 = .error .reservedOffset := by decide +kernel

/-- Program P1's LOADKEY and ABSORB expansions (R99). -/
theorem test_host_macros :
    absorbMessage [0x68, 0x65, 0x6c, 0x6c, 0x6f] =
      [.write 0x10 8 0x0000006f6c6c6568, .write 0x00 8 0x0000000000000502] ∧
    (loadKey [1, 2, 3, 4]).head? = some (.write 0x40 8 0x0000000004030201) ∧ absorbMessage [] = [] := by decide +kernel

/-! ## Witnesses: the hypotheses of each obligation are met by a concrete instance

Named after the obligation; one instance per clause, at a boundary value where the clause has a range. -/

theorem witness_DecodeOfEncodeIsIdentity : (Instr.update 8).wellFormed = true := by decide

theorem witness_DecodedWordEncodesBack : decode 0x0000000000000802 = .ok (.update 8) := by decide

/-- One word for each disjunct: RSV, OP 0 and 8, an unused field of UPDATE and of RESET, COUNT 9. -/
theorem witness_IllegalWordOnlyRaises :
    (∃ e, decode 0x0000010000000001 = .error e) ∧ (∃ e, decode 0x0000000000000000 = .error e) ∧
    (∃ e, decode 0x0000000000000008 = .error e) ∧ (∃ e, decode 0x0000000000010002 = .error e) ∧
    (∃ e, decode 0x0000000000000104 = .error e) ∧ (∃ e, decode 0x0000000000000902 = .error e) :=
  ⟨⟨_, rfl⟩, ⟨_, rfl⟩, ⟨_, rfl⟩, ⟨_, rfl⟩, ⟨_, rfl⟩, ⟨_, rfl⟩⟩

theorem witness_StepRunsDecodedCommand :
    (serving State.reset [.write 0x00 8 0x4001]).pending = .write 0x00 8 0x4001 :: [] ∧
    decode 0x4001 = .ok (.init 64 0 0 0) ∧ decode (tableWord 64 0x4001) = .ok (.init 64 0 0 0) := by decide

/-- Accesses on both sides of every boundary of R63: refused at 0x028, 0x038, 0x0A0, 0x0B8 and, for a write, 0x008, 0x018,
0x020, 0x0C0, 0x0F8, for a read, 0x000, 0x040, 0x098; accepted at 0x020, 0x0C0, 0x0F8 (read), 0x000, 0x010, 0x040, 0x098
(write). -/
theorem witness_BusErrorsExactly :
    (serving State.reset [.read 0x028 8]).pending = .read 0x028 8 :: [] ∧
    (serving State.reset [.write 0x028 8 0]).pending = .write 0x028 8 0 :: [] ∧
    ([0x028, 0x038, 0x0A0, 0x0B8, 0x000, 0x040, 0x098].all fun o =>
      decide (∃ e ∈ [BusError.reservedOffset, BusError.readOfWriteOnly], busRead State.reset o 8 = .error e)) = true ∧
    ([0x008, 0x010, 0x018, 0x020, 0x0C0, 0x0F8].all fun o => (busRead State.reset o 8).toBool) = true ∧
    ([0x028, 0x038, 0x0A0, 0x0B8, 0x008, 0x018, 0x020, 0x0C0, 0x0F8].all fun o =>
      ends (busWrite State.reset o 8 0) (fun _ => true)) = false ∧
    ([0x000, 0x010, 0x040, 0x080, 0x090, 0x098].all fun o =>
      ends (busWrite State.reset o 8 0) (fun _ => true)) = true := by decide +kernel

/-- The clause about addresses: just past the only window. -/
theorem witness_BusErrorsExactly_outside (k : Nat) (hk : k < (Platform.mk [State.reset]).engines.length) :
    ¬ (Config.engineBase k ≤ Config.engineBase 0 + 256 ∧ Config.engineBase 0 + 256 < Config.engineBase k + 256) := by
  have h0 : k = 0 := by simpa using hk
  subst h0
  omega

theorem route_zero (s : State) (rest : List State) (off : Nat) (h : off < 256) :
    (Platform.mk (s :: rest)).route (Config.engineBase 0 + off) = some 0 := by
  simp [Platform.route, inWindow, List.range_succ_eq_map, h]

theorem windowOffset_zero (off : Nat) : windowOffset (Config.engineBase 0 + off) 0 = BitVec.ofNat 8 off := by
  simp [windowOffset]

/-- A read of CMD and a write of STATUS of the first engine. -/
theorem witness_BusErrorLeavesEnginesAlone :
    (Platform.mk [State.reset]).route (Config.engineBase 0 + 0) = some 0 ∧
    (Platform.mk [State.reset]).engines[0]? = some State.reset ∧
    busRead State.reset (windowOffset (Config.engineBase 0 + 0) 0) 8 = .error .readOfWriteOnly ∧
    (Platform.mk [State.reset]).route (Config.engineBase 0 + 8) = some 0 ∧
    busWrite State.reset (windowOffset (Config.engineBase 0 + 8) 0) 8 0 = .fault (.busError .writeOfReadOnly) := by
  refine ⟨route_zero _ _ 0 (by decide), rfl, ?_, route_zero _ _ 8 (by decide), ?_⟩
  · rw [windowOffset_zero]
    rfl
  · rw [windowOffset_zero]
    rfl

/-- A write of DIN of the first of two engines, and a read of its STATUS. -/
theorem witness_InstancesShareNoState :
    (Platform.mk [State.reset, State.reset]).route (Config.engineBase 0 + 16) = some 0 ∧
    (Platform.mk [State.reset, State.reset]).write (Config.engineBase 0 + 16) 8 1 =
      some (⟨[{ State.reset with din := 1 }, State.reset]⟩, .done) ∧
    (Platform.mk [State.reset, State.reset]).read (Config.engineBase 0 + 16) 8 =
      some (⟨[State.reset, State.reset]⟩, .data 0) := by
  have hr := route_zero State.reset [State.reset] 16 (by decide)
  refine ⟨hr, ?_, ?_⟩
  · unfold Platform.write
    rw [hr]
    simp only [windowOffset_zero]
    rfl
  · unfold Platform.read
    rw [hr]
    simp only [windowOffset_zero]
    rfl

/-- At the largest values of the three length fields. -/
theorem witness_StatusReadLayout :
    (serving keyed [.read 0x008 8]).pending = .read 0x008 8 :: [] ∧ keyed.bufferLength = 128 ∧
    keyed.outputLength = 64 ∧ keyed.keyLength = 64 ∧
    (serving keyed [.write 0x008 8 0]).pending = .write 0x008 8 0 :: [] := by decide

theorem witness_CounterHalvesRead :
    (serving closed [.read 0x018 8]).pending = .read 0x018 8 :: [] ∧
    (serving closed [.read 0x020 8]).pending = .read 0x020 8 :: [] ∧
    (serving closed [.write 0x018 8 1]).pending = .write 0x018 8 1 :: [] ∧
    (serving closed [.write 0x020 8 1]).pending = .write 0x020 8 1 :: [] := by decide

theorem witness_DinHoldsLastWrite :
    (serving closed [.write 0x010 8 5, .read 0x010 8]).pending = .write 0x010 8 5 :: .read 0x010 8 :: [] ∧
    runCommand 0x0000000000000006 { opened 0 with din := 5 } = .next { opened 0 with din := 5 } := ⟨by decide, rfl⟩

/-- The first and last register of each kind. -/
theorem witness_StagingWriteOnlyStores :
    (serving closed [.write 0x040 8 1]).pending = .write (BitVec.ofNat 8 (0x040 + 8 * (0 : Fin 8).val)) 8 1 :: [] ∧
    (serving closed [.write 0x078 8 1]).pending = .write (BitVec.ofNat 8 (0x040 + 8 * (7 : Fin 8).val)) 8 1 :: [] ∧
    (serving closed [.write 0x080 8 1]).pending = .write (BitVec.ofNat 8 (0x080 + 8 * (0 : Fin 2).val)) 8 1 :: [] ∧
    (serving closed [.write 0x088 8 1]).pending = .write (BitVec.ofNat 8 (0x080 + 8 * (1 : Fin 2).val)) 8 1 :: [] ∧
    (serving closed [.write 0x090 8 1]).pending = .write (BitVec.ofNat 8 (0x090 + 8 * (0 : Fin 2).val)) 8 1 :: [] ∧
    (serving closed [.write 0x098 8 1]).pending = .write (BitVec.ofNat 8 (0x090 + 8 * (1 : Fin 2).val)) 8 1 :: [] := by
  decide

theorem witness_OutWindowRead :
    (serving closed [.read 0x0C0 8]).pending = .read (BitVec.ofNat 8 (0x0C0 + 8 * (0 : Fin 8).val)) 8 :: [] ∧
    (serving closed [.read 0x0F8 8]).pending = .read (BitVec.ofNat 8 (0x0C0 + 8 * (7 : Fin 8).val)) 8 :: [] ∧
    (opened 0).configured = true ∧ (opened 0).finalized = false ∧ (opened 0).outputLength = 64 := by decide

theorem witness_ReadsHaveNoSideEffect :
    (serving closed [.read 0x0F8 8]).pending = .read 0x0F8 8 :: [] ∧
    step (serving closed [.read 0x0F8 8]) = .next { closed with reads := [0] } ∧
    (serving closed [.read 0x0F8 8, .read 0x0F8 8]).pending = .read 0x0F8 8 :: .read 0x0F8 8 :: [] ∧
    core.run 2 (serving closed [.read 0x0F8 8, .read 0x0F8 8]) = .next ({ closed with reads := [0, 0] } : State) :=
  ⟨rfl, rfl, rfl, rfl⟩

/-- Two engines with different keys, salts, chaining states and buffers, equal in what the host may read. -/
theorem witness_SecretsAreNotReadable :
    let s := serving keyed [.read 0x008 8]
    let u := serving { keyed with
      h := Vector.replicate 8 1, key := zeros 64, salt := counting 16, buffer := zeros 128,
      keyIn := Vector.replicate 8 3 } [.read 0x008 8]
    s ≠ u ∧ s.pending = .read 0x008 8 :: [] ∧ u.pending = .read 0x008 8 :: [] ∧ s.configured = u.configured ∧
    s.finalized = u.finalized ∧ s.errSticky = u.errSticky ∧ s.lastErr = u.lastErr ∧ s.bufferLength = u.bufferLength ∧
    s.outputLength = u.outputLength ∧ s.keyLength = u.keyLength ∧ s.t = u.t ∧ s.din = u.din ∧ s.out = u.out := by
  decide +kernel

theorem witness_IdleEngineHoldsState : keyed.pending = [] := by decide

theorem witness_ParameterBlockLayout :
    keyed.outputLength ≤ 64 ∧ keyed.keyLength ≤ 64 ∧ 4 ≤ (4 : Fin 64).val ∧ (4 : Fin 64).val ≤ 31 ∧
    4 ≤ (31 : Fin 64).val ∧ (31 : Fin 64).val ≤ 31 := by decide

theorem witness_ParameterBlockWords : keyed.outputLength ≤ 64 ∧ keyed.keyLength ≤ 64 := by decide

/-- The smallest and the largest operands INIT accepts. -/
theorem witness_InitSucceeds :
    (1 ≤ (1 : Byte).toNat ∧ (1 : Byte).toNat ≤ 64 ∧ (0 : Byte).toNat ≤ 64) ∧
    (1 ≤ (64 : Byte).toNat ∧ (64 : Byte).toNat ≤ 64 ∧ (64 : Byte).toNat ≤ 64 ∧ ((16 : Byte) = 0 ∨ (16 : Byte) = 16)) := by
  decide

/-- One operand list for each disjunct, just outside its range (V-I5). -/
theorem witness_InitRejectsParameters :
    (0 : Byte).toNat = 0 ∧ 64 < (65 : Byte).toNat ∧ ((8 : Byte) ≠ 0 ∧ (8 : Byte) ≠ 16) ∧
    ((1 : Byte) ≠ 0 ∧ (1 : Byte) ≠ 16) ∧ ((17 : Byte) ≠ 0 ∧ (17 : Byte) ≠ 16) := by decide

theorem witness_NamedConfigurations :
    (((20 : Byte), (0x6a09e667f2bdc91c : Word64)) = (20, 0x6a09e667f2bdc91c)) ∧
    (((64 : Byte), (0x6a09e667f2bdc948 : Word64)) = (64, 0x6a09e667f2bdc948)) := by decide

theorem witness_AbsentSaltIsZeroSalt :
    1 ≤ (64 : Byte).toNat ∧ (64 : Byte).toNat ≤ 64 ∧ (64 : Byte).toNat ≤ 64 ∧ ((16 : Byte) = 0 ∨ (16 : Byte) = 16) ∧
    State.reset.saltIn = Vector.replicate 2 0 ∧ State.reset.persIn = Vector.replicate 2 0 := by decide

theorem witness_OnlyInitUsesStaging :
    (∀ a b c d, Instr.clearSalt ≠ .init a b c d) ∧
    exec .clearSalt (opened 0) = .next (opened 0) := ⟨by simp, rfl⟩

/-- No byte, and as many as fill the buffer. -/
theorem witness_UpdateWithinBlock :
    (opened 120).configured = true ∧ (opened 120).finalized = false ∧ (8 : Byte).toNat ≤ 8 ∧
    (opened 120).bufferLength + (8 : Byte).toNat ≤ 128 ∧ (opened 128).bufferLength + (0 : Byte).toNat ≤ 128 := by decide

/-- One byte too many, and eight on a full buffer. -/
theorem witness_UpdateAcrossBlock :
    (opened 121).configured = true ∧ (opened 121).finalized = false ∧ (8 : Byte).toNat ≤ 8 ∧
    (opened 121).bufferLength ≤ 128 ∧ 128 < (opened 121).bufferLength + (8 : Byte).toNat ∧
    (opened 128).bufferLength ≤ 128 ∧ 128 < (opened 128).bufferLength + (8 : Byte).toNat := by decide

theorem witness_UpdateErrors :
    8 < (9 : Byte).toNat ∧ (8 : Byte).toNat ≤ 8 ∧ State.reset.configured = false ∧ closed.finalized = true := by decide

/-- "abc" as V-U5 splits it, with an empty chunk and a full one. -/
theorem witness_ChunkingIndependence :
    (opened 0).configured = true ∧ (opened 0).finalized = false ∧
    (∀ c ∈ ([[0x61], [], [0x62, 0x63], [1, 2, 3, 4, 5, 6, 7, 8]] : List (List Byte)), c.length ≤ 8) ∧
    (serving (opened 0) (([[0x61], [], [0x62, 0x63], [1, 2, 3, 4, 5, 6, 7, 8]] : List (List Byte)).flatMap absorbChunk ++
        [.read 0x018 8])).pending =
      ([[0x61], [], [0x62, 0x63], [1, 2, 3, 4, 5, 6, 7, 8]] : List (List Byte)).flatMap absorbChunk ++
        [.read 0x018 8] := by decide +kernel

theorem witness_CounterCountsAbsorbedBytes :
    (opened 128).bufferLength ≤ 128 ∧ (opened 128).t.toNat % 128 = 0 ∧ ([0] : List Byte) ≠ [] := by decide

theorem witness_CompressionCount :
    (opened 0).t = 0 ∧ (opened 0).bufferLength = 0 ∧ keyed.t = 0 ∧ keyed.bufferLength = 128 := by decide

theorem witness_CounterAdditionCarries : (128 : Nat) ≤ 128 := by decide

theorem witness_MixerUpdatesFourWords :
    (0 : Fin 16) ≠ 4 ∧ (0 : Fin 16) ≠ 8 ∧ (0 : Fin 16) ≠ 12 ∧ (4 : Fin 16) ≠ 8 ∧ (4 : Fin 16) ≠ 12 ∧ (8 : Fin 16) ≠ 12 ∧
    (15 : Fin 16) ≠ 0 ∧ (15 : Fin 16) ≠ 4 ∧ (15 : Fin 16) ≠ 8 ∧ (15 : Fin 16) ≠ 12 := by decide

/-- The first two column calls of R176, and two diagonal ones. -/
theorem witness_DisjointMixersCommute :
    ([0, 4, 8, 12, 1, 5, 9, 13] : List (Fin 16)).Nodup ∧ ([0, 5, 10, 15, 1, 6, 11, 12] : List (Fin 16)).Nodup := by decide

/-- A digest that ends exactly at the window's end. -/
theorem witness_DigestSucceeds :
    (opened 128).configured = true ∧ (opened 128).finalized = false ∧
    (0 : Byte).toNat + (opened 128).outputLength ≤ 64 ∧
    (32 : Byte).toNat + ({ opened 5 with outputLength := 32 } : State).outputLength ≤ 64 := by decide

theorem witness_DigestErrors :
    State.reset.configured = false ∧ closed.finalized = true ∧ (opened 0).configured = true ∧
    (opened 0).finalized = false ∧ 64 < (1 : Byte).toNat + (opened 0).outputLength := by decide

theorem opened_inv : (opened 0).Inv where
  bufferLength_le := by decide
  buffer_tail := by decide +kernel
  outputLength_le := by decide
  outputLength_pos := by decide
  keyLength_le := by decide
  key_tail := by decide +kernel
  finalized_configured := by decide
  finalized_empty := by decide
  counter_blocks := by decide
  keyed_nonempty := by decide
  error_sticky := by decide
  unconfigured_blank := by decide

theorem keyed_inv : keyed.Inv where
  bufferLength_le := by decide
  buffer_tail := by decide +kernel
  outputLength_le := by decide
  outputLength_pos := by decide
  keyLength_le := by decide
  key_tail := by decide +kernel
  finalized_configured := by decide
  finalized_empty := by decide
  counter_blocks := by decide
  keyed_nonempty := by decide
  error_sticky := by decide
  unconfigured_blank := by decide

theorem keyed_holds : keyed.HoldsKeyBlock := fun _ _ _ _ => ⟨rfl, rfl⟩

theorem witness_PaddingWritesZerosOverZeros :
    (opened 0).Inv ∧ (opened 0).configured = true ∧ (opened 0).finalized = false ∧
    (0 : Byte).toNat + (opened 0).outputLength ≤ 64 := ⟨opened_inv, by decide, by decide, by decide⟩

/-- Two engines with the same stream and different staging, salts and histories. -/
theorem witness_DigestDependsOnlyOnStream :
    let s := opened 5
    let u := { opened 5 with salt := counting 16, din := 7, errSticky := true }
    s ≠ u ∧ s.configured = true ∧ s.finalized = false ∧ u.configured = true ∧ u.finalized = false ∧ s.h = u.h ∧
    s.t = u.t ∧ s.buffer = u.buffer ∧ s.bufferLength = u.bufferLength ∧ s.outputLength = u.outputLength ∧
    s.out = u.out ∧ (0 : Byte).toNat + s.outputLength ≤ 64 := by decide +kernel

/-- Program P4's "abc" at OFFSET 32 with OUTLEN 32, from power-on, split into two chunks. -/
theorem witness_EngineComputesBlake2b :
    1 ≤ (32 : Byte).toNat ∧ (32 : Byte).toNat ≤ 64 ∧ (4 : Byte).toNat ≤ 64 ∧ ((16 : Byte) = 0 ∨ (16 : Byte) = 16) ∧
    (32 : Byte).toNat + (32 : Byte).toNat ≤ 64 ∧ (∀ c ∈ ([[0x61, 0x62], [0x63]] : List (List Byte)), c.length ≤ 8) ∧
    (serving State.reset (command (.init 32 4 16 16) ::
        (([[0x61, 0x62], [0x63]] : List (List Byte)).flatMap absorbChunk ++ command (.digest 32) :: []))).pending =
      command (.init 32 4 16 16) ::
        (([[0x61, 0x62], [0x63]] : List (List Byte)).flatMap absorbChunk ++ command (.digest 32) :: []) := by
  decide +kernel

theorem witness_ResetRestartsStream :
    closed.configured = true ∧ closed.outputLength ≤ 64 ∧ keyed.configured = true ∧ keyed.outputLength ≤ 64 ∧
    keyed.keyLength ≤ 64 ∧ State.reset.configured = false := by decide

theorem witness_ClearKeyErasesKey : keyed.configured = true ∧ State.reset.configured = false := by decide

theorem witness_ClearSaltErasesSalt : keyed.configured = true ∧ State.reset.configured = false := by decide

theorem witness_TeardownLeavesNoSecret :
    (serving keyed [command .clearKey, command .clearSalt, command .reset]).pending =
      command .clearKey :: command .clearSalt :: command .reset :: [] ∧
    keyed.configured = true ∧ keyed.outputLength ≤ 64 ∧ keyed.keyLength ≤ 64 := by decide +kernel

theorem witness_ClearedKeyIsZeroKey :
    (serving keyed [command .clearKey, command .reset]).Inv ∧
    (serving keyed [command .clearKey, command .reset]).configured = true ∧
    (serving keyed [command .clearKey, command .reset]).pending = command .clearKey :: command .reset :: [] ∧
    State.reset.keyIn = Vector.replicate 8 0 ∧ State.reset.saltIn = toWords 2 keyed.salt ∧
    State.reset.persIn = toWords 2 keyed.personalization := by
  refine ⟨{ keyed_inv with }, rfl, rfl, rfl, ?_, ?_⟩ <;> decide +kernel

/-- V-R1 with two different splits of the message. -/
theorem witness_ResetIsIdempotent :
    let a : List (List Byte) := [[0x68, 0x65, 0x6c, 0x6c, 0x6f]]
    let b : List (List Byte) := [[0x68], [0x65, 0x6c, 0x6c, 0x6f]]
    let s := serving (opened 0) (command .reset :: (a.flatMap absorbChunk ++ command (.digest 0) ::
      command .reset :: (b.flatMap absorbChunk ++ command (.digest 0) :: [])))
    s.Inv ∧ s.configured = true ∧ (0 : Byte).toNat + s.outputLength ≤ 64 ∧ (∀ c ∈ a, c.length ≤ 8) ∧
    (∀ c ∈ b, c.length ≤ 8) ∧ a.flatten = b.flatten ∧
    s.pending = command .reset :: (a.flatMap absorbChunk ++ command (.digest 0) ::
      command .reset :: (b.flatMap absorbChunk ++ command (.digest 0) :: [])) := by
  refine ⟨{ opened_inv with }, rfl, by decide, by decide, by decide, by decide, rfl⟩

/-- A command word that raises INVALID_STATE. -/
theorem witness_ErrorsArePrecise :
    runCommand 0x0000000000000004 State.reset = .next (State.reset.raiseError .invalidState) ∧
    (State.reset.raiseError .invalidState).lastErr ≠ .ok := ⟨rfl, by decide⟩

theorem witness_StickyBitRemembersFailures :
    runCommand 0x0000000000000006 (opened 0) = .next (opened 0) ∧ decode 0x0000000000000006 ≠ .ok .ackErr ∧
    runCommand 0x0000000000000007 (opened 0) = .next (opened 0) ∧ decode 0x0000000000000007 = .ok .ackErr :=
  ⟨rfl, by decide, rfl, by decide⟩

theorem witness_ConfiguredOnlyByInit :
    step (opened 0) = .next (opened 0) ∧ (opened 0).configured = true ∧
    exec (.init 64 0 0 0) State.reset = .next (opened 0) ∧ State.reset.configured = false := by
  have h : exec (.init 64 0 0 0) State.reset =
      .next (State.reset.configure 64 0 0 0).runInitialize.succeed := rfl
  refine ⟨rfl, rfl, ?_, rfl⟩
  rw [h]
  congr 1

theorem witness_UnconfiguredEngineRefuses :
    (Instr.update 8).wellFormed = true ∧ State.reset.configured = false ∧ Instr.update 8 ≠ .ackErr ∧
    (∀ a b c d, Instr.update 8 ≠ .init a b c d) := ⟨by decide, rfl, by decide, by simp⟩

theorem witness_OnlyInitChangesConfiguration :
    (∀ a b c d, Instr.reset ≠ .init a b c d) ∧ exec .ackErr keyed = .next keyed ∧ Instr.ackErr ≠ .clearKey ∧
    Instr.ackErr ≠ .clearSalt := ⟨by simp, rfl, by decide, by decide⟩

theorem witness_OnlyDigestWritesOut :
    exec .ackErr keyed = .next keyed ∧ (∀ offset, Instr.ackErr ≠ .digest offset) := ⟨rfl, by simp⟩

/-- A second DIGEST and an UPDATE on a finalized engine. -/
theorem witness_FinalizedStreamIsFrozen :
    closed.finalized = true ∧ exec (.digest 0) closed = .next (closed.raiseError .invalidState) ∧
    exec (.update 8) closed = .next (closed.raiseError .invalidState) ∧ Instr.digest 0 ≠ .reset ∧
    (∀ a b c d, Instr.digest 0 ≠ .init a b c d) ∧ (Instr.update 8).wellFormed = true :=
  ⟨rfl, rfl, rfl, by decide, by simp, by decide⟩

theorem witness_StepKeepsInvariant : keyed.Inv ∧ step keyed = .next keyed := ⟨keyed_inv, rfl⟩

/-- A step that runs a command: CLEAR_KEY on the buffered key block. -/
theorem witness_KeyBlockStaysBuffered :
    (serving keyed [.write 0x00 8 0x05]).Inv ∧ (serving keyed [.write 0x00 8 0x05]).HoldsKeyBlock ∧
    (serving keyed [.write 0x00 8 0x05]).t.toNat + 128 < 2 ^ 128 ∧
    step (serving keyed [.write 0x00 8 0x05]) = .next keyed.eraseKey.succeed :=
  ⟨{ keyed_inv with }, keyed_holds, by decide, rfl⟩

theorem witness_NextByteCompressesKeyBlock :
    keyed.HoldsKeyBlock ∧ keyed.configured = true ∧ keyed.finalized = false ∧ 0 < keyed.keyLength ∧ keyed.t = 0 ∧
    1 ≤ (1 : Byte).toNat ∧ (8 : Byte).toNat ≤ 8 ∧ (0 : Byte).toNat + keyed.outputLength ≤ 64 :=
  ⟨keyed_holds, rfl, rfl, by decide, rfl, by decide, by decide, by decide⟩

end Sys2Proof.Machine.Tests
end

section
/-! SUPPORT. Commands and DIN writes as single steps, and a host program that feeds a message in chunks as one Absorb
(20_memory.md R72, 30_encoding.md R97 to R99, 41_update.md R153). -/

namespace Sys2Proof

/-- Decoding the word of a well-formed command gives the command back (30_encoding.md R97). -/
theorem decode_encode (i : Instr) (h : i.wellFormed = true) : decode (encode i) = .ok i := by
  cases i with
  | init a b c d => simp [encode, decode]
  | update n =>
    have hn : n.toNat ≤ 8 := by simpa [Instr.wellFormed] using h
    simp [encode, decode, tailClear, hn]
  | digest o => simp [encode, decode, tailClear]
  | reset => rfl
  | clearKey => rfl
  | clearSalt => rfl
  | ackErr => rfl

end Sys2Proof

namespace Sys2Proof.Machine

theorem busWrite_cmd (s : State) (w : Word64) : busWrite s 0x00 8 w = runCommand w s := rfl

theorem busWrite_din (s : State) (v : Word64) : busWrite s 0x10 8 v = .next { s with din := v } := rfl

theorem runCommand_of_decode (s : State) (w : Word64) (i : Instr) (h : decode w = .ok i) : runCommand w s = exec i s := by
  unfold runCommand
  rw [h]

/-- A pending command is executed by the next step (20_memory.md R72). -/
theorem step_command (s : State) (i : Instr) (rest : List Transaction) (hi : i.wellFormed = true)
    (hp : s.pending = command i :: rest) : step s = exec i { s with pending := rest } := by
  rw [step_write s 0x00 8 (encode i) rest hp, busWrite_cmd, runCommand_of_decode _ _ i (decode_encode i hi)]

/-- A pending DIN write stores its value (10_state.md R37). -/
theorem step_wr_din (s : State) (v : Word64) (rest : List Transaction) (hp : s.pending = wr 0x10 v :: rest) :
    step s = .next { s with pending := rest, din := v } := by
  rw [step_write s 0x10 8 v rest hp, busWrite_din]

/-- A pending UPDATE in an open stream absorbs the low bytes of DIN (41_update.md R152). -/
theorem step_update (s : State) (n : Byte) (rest : List Transaction) (hcfg : s.configured = true)
    (hfin : s.finalized = false) (hn : n.toNat ≤ 8) (hp : s.pending = command (.update n) :: rest) :
    step s = .next { s.absorb (s.dinBytes n.toNat) with pending := rest, din := s.din, lastErr := .ok } := by
  rw [step_command s _ rest (by simp [Instr.wellFormed, hn]) hp]
  refine (exec_update_open n { s with pending := rest } hn hcfg hfin).trans ?_
  exact congrArg (fun t : State => Host.Outcome.next t.succeed)
    (State.absorb_congr_env s (s.dinBytes n.toNat) rest s.din s.lastErr)

/-- UPDATE takes from a packed DIN the bytes that were packed there (20_memory.md R69, 30_encoding.md R99). -/
theorem dinBytes_of_packBytes (s : State) (bytes : List Byte) (hd : s.din = packBytes bytes) (hlen : bytes.length ≤ 8) :
    s.dinBytes bytes.length = bytes := by
  apply List.ext_getElem (by simp)
  intro j _ hj
  have hlane : byteLane (packBytes bytes) j = bytes[j] := by
    unfold packBytes
    rw [byteLane_le64 _ _ _ (by omega)]
    simp [hj]
  simpa [State.dinBytes, hd] using hlane

/-- A chunk of at most 8 bytes, written to DIN and absorbed by UPDATE in an open stream, is absorbed in two steps (R99). -/
theorem run_absorbChunk (s : State) (c : List Byte) (rest : List Transaction) (hcfg : s.configured = true)
    (hfin : s.finalized = false) (hc : c.length ≤ 8) (hp : s.pending = absorbChunk c ++ rest) :
    core.run 2 s = .next { s.absorb c with pending := rest, din := packBytes c, lastErr := .ok } := by
  have hn : (BitVec.ofNat 8 c.length).toNat = c.length := by
    rw [BitVec.toNat_ofNat]
    omega
  have hwrite := step_wr_din s (packBytes c) (command (.update (BitVec.ofNat 8 c.length)) :: rest) hp
  have hupdate := step_update { s with
      pending := command (.update (BitVec.ofNat 8 c.length)) :: rest, din := packBytes c } _ rest hcfg hfin
    (hn.trans_le hc) rfl
  rw [hn, dinBytes_of_packBytes _ c rfl hc, State.absorb_congr_env s c _ _ s.lastErr] at hupdate
  rw [run_succ_of_step _ _ _ hwrite, run_succ_of_step _ _ _ hupdate]
  rfl

/-- Any split of a message into chunks leaves what absorbing the whole message leaves; only DIN and the error code tell of
the split (R153). -/
theorem run_absorbChunks (s : State) (chunks : List (List Byte)) (rest : List Transaction) (hcfg : s.configured = true)
    (hfin : s.finalized = false) (hc : ∀ c ∈ chunks, c.length ≤ 8) (hp : s.pending = chunks.flatMap absorbChunk ++ rest) :
    ∃ d e, core.run (2 * chunks.length) s =
      .next { s.absorb chunks.flatten with pending := rest, din := d, lastErr := e } := by
  induction chunks generalizing s with
  | nil =>
    refine ⟨s.din, s.lastErr, ?_⟩
    simp only [List.flatMap_nil, List.nil_append] at hp
    subst hp
    rfl
  | cons c cs ih =>
    have hfirst := run_absorbChunk s c (cs.flatMap absorbChunk ++ rest) hcfg hfin (hc c (by simp)) (by simpa using hp)
    obtain ⟨d, e, hrest⟩ := ih { s.absorb c with
        pending := cs.flatMap absorbChunk ++ rest, din := packBytes c, lastErr := .ok } (by simpa using hcfg)
      (by simpa using hfin) (fun c' hc' => hc c' (by simp [hc'])) rfl
    refine ⟨d, e, ?_⟩
    rw [List.length_cons, show 2 * (cs.length + 1) = 2 + 2 * cs.length by omega, run_add _ _ _ _ hfirst, hrest,
      State.absorb_congr_env, List.flatten_cons, State.absorb_append]

end Sys2Proof.Machine
end

section
/-! SUPPORT. The streaming engine against BLAKE2b of the whole message: after every absorbed byte, chaining state, counter and
buffer are those of the message absorbed so far (10_state.md R43, R44). -/

namespace Sys2Proof.Machine

theorem getElem_padBlock (l : List Byte) (i : Nat) (h : i < 128) : (padBlock l)[i] = l.getD i 0 := by
  simp [padBlock]

theorem padBlock_nil : padBlock [] = zeros 128 := by
  ext i hi : 1
  rw [getElem_padBlock _ _ hi, getElem_zeros, List.getD_nil]

/-- Bytes past the first 128 do not reach the block. -/
theorem padBlock_append_of_full (l m : List Byte) (h : 128 ≤ l.length) : padBlock (l ++ m) = padBlock l := by
  ext i hi : 1
  rw [getElem_padBlock _ _ hi, getElem_padBlock _ _ hi, List.getD_append _ _ _ _ (by omega)]

/-- Placing a byte behind the bytes of a padded block (41_update.md R150). -/
theorem setIfInBounds_padBlock (l : List Byte) (b : Byte) :
    (padBlock l).setIfInBounds l.length b = padBlock (l ++ [b]) := by
  ext i hi : 1
  rw [Vector.getElem_setIfInBounds, getElem_padBlock _ _ hi, getElem_padBlock _ _ hi]
  rcases lt_trichotomy i l.length with hlt | heq | hgt
  · rw [if_neg (by omega), List.getD_append _ _ _ _ hlt]
  · simp [heq]
  · rw [if_neg (by omega), List.getD_eq_default _ _ (by omega), List.getD_eq_default _ _ (by simp; omega)]

/-- A padded block is already zero where DIGEST pads it (43_finalization.md R201). -/
theorem keepFirst_padBlock (l : List Byte) : keepFirst l.length (padBlock l) = padBlock l := by
  apply keepFirst_of_tail_zero
  intro i hi
  exact (getElem_padBlock l i i.isLt).trans (List.getD_eq_default _ _ hi)

theorem add128_ofNat (m n : Nat) : add128 (BitVec.ofNat 128 m) n = BitVec.ofNat 128 (m + n) :=
  (BitVec.ofNat_add m n).symm

theorem chainBlocks_zero (h : Vector Word64 8) (data : List Byte) : chainBlocks h data 0 = h := rfl

theorem chainBlocks_succ (h : Vector Word64 8) (data : List Byte) (k : Nat) :
    chainBlocks h data (k + 1) =
      compress (chainBlocks h data k) (padBlock (data.drop (128 * k))) (BitVec.ofNat 128 (128 * (k + 1))) false := by
  simp [chainBlocks, List.range_succ]

/-- The blocks a message has filled are not changed by the bytes that follow. -/
theorem chainBlocks_append (h : Vector Word64 8) (data more : List Byte) (k : Nat) (hk : 128 * k ≤ data.length) :
    chainBlocks h (data ++ more) k = chainBlocks h data k := by
  induction k with
  | zero => rw [chainBlocks_zero, chainBlocks_zero]
  | succ k ih =>
    rw [chainBlocks_succ, chainBlocks_succ, ih (by omega), List.drop_append_of_le_length (by omega),
      padBlock_append_of_full _ _ (by simp; omega)]

/-- The last block of a stream holds 1 to 128 of its bytes, which fixes how many blocks stand before it (R155). -/
theorem blockCount_pred_eq (n k : Nat) (hlt : 128 * k < n) (hle : n ≤ 128 * (k + 1)) : blockCount n - 1 = k := by
  unfold blockCount
  omega

theorem le_blockCount_pred (n : Nat) : n ≤ 128 * (blockCount n - 1) + 128 := by
  unfold blockCount
  omega

/-- A stream that started from the chaining state `h0` has absorbed `data`: its first `k` blocks are compressed, the bytes
after them are buffered (10_state.md R44). -/
structure State.HoldsBlocks (h0 : Vector Word64 8) (data : List Byte) (k : Nat) (s : State) : Prop where
  h_eq : s.h = chainBlocks h0 data k
  t_eq : s.t = BitVec.ofNat 128 (128 * k)
  length_eq : 128 * k + s.bufferLength = data.length
  buffer_eq : s.buffer = padBlock (data.drop (128 * k))

/-- The stream as Absorb leaves it: a block is compressed only once a byte follows it (41_update.md R150, R154, R155). -/
def State.HasAbsorbed (h0 : Vector Word64 8) (data : List Byte) (s : State) : Prop :=
  s.HoldsBlocks h0 data (blockCount data.length - 1)

namespace State

/-- Compressing a full buffer moves it to the compressed blocks (R150). -/
theorem HoldsBlocks.compressFull {h0 : Vector Word64 8} {data : List Byte} {k : Nat} {s : State}
    (hs : s.HoldsBlocks h0 data k) (hfull : s.bufferLength = 128) : s.compressFull.HoldsBlocks h0 data (k + 1) := by
  obtain ⟨hh, ht, hl, hb⟩ := hs
  have hcount : add128 s.t 128 = BitVec.ofNat 128 (128 * (k + 1)) := by rw [ht, add128_ofNat, Nat.mul_succ]
  refine ⟨?_, hcount, ?_, ?_⟩
  · rw [compressFull_h, hcount, hh, hb, chainBlocks_succ]
  · rw [compressFull_bufferLength]
    omega
  · rw [compressFull_buffer, List.drop_eq_nil_of_le (by omega), padBlock_nil]

/-- Placing a byte adds it to the message (R150). -/
theorem HoldsBlocks.placeByte {h0 : Vector Word64 8} {data : List Byte} {k : Nat} {s : State}
    (hs : s.HoldsBlocks h0 data k) (b : Byte) : (s.placeByte b).HoldsBlocks h0 (data ++ [b]) k := by
  obtain ⟨hh, ht, hl, hb⟩ := hs
  have hbuffered : s.bufferLength = (data.drop (128 * k)).length := by
    rw [List.length_drop]
    omega
  refine ⟨?_, ht, ?_, ?_⟩
  · rw [placeByte_h, hh, chainBlocks_append _ _ _ _ (by omega)]
  · rw [placeByte_bufferLength, List.length_append, List.length_singleton]
    omega
  · rw [placeByte_buffer, hb, hbuffered, setIfInBounds_padBlock, List.drop_append_of_le_length (by omega)]

/-- One more byte, which first compresses a full buffer, is one more byte of the message (R150, R154). -/
theorem HasAbsorbed.absorbByte {h0 : Vector Word64 8} {data : List Byte} {s : State} (hs : s.HasAbsorbed h0 data)
    (b : Byte) : (s.absorbByte b).HasAbsorbed h0 (data ++ [b]) := by
  have hl := hs.length_eq
  have hle := le_blockCount_pred data.length
  unfold HasAbsorbed State.absorbByte
  rw [List.length_append, List.length_singleton]
  split
  · next hfull =>
    rw [blockCount_pred_eq _ (blockCount data.length - 1 + 1) (by omega) (by omega)]
    exact (hs.compressFull hfull).placeByte b
  · next hroom =>
    rw [blockCount_pred_eq _ (blockCount data.length - 1) (by omega) (by omega)]
    exact hs.placeByte b

/-- Absorbing more bytes is absorbing the longer message. -/
theorem HasAbsorbed.absorb {h0 : Vector Word64 8} {data : List Byte} {s : State} (hs : s.HasAbsorbed h0 data)
    (bytes : List Byte) : (s.absorb bytes).HasAbsorbed h0 (data ++ bytes) := by
  induction bytes generalizing s data with
  | nil => simpa [absorb_nil] using hs
  | cons b bs ih => simpa [absorb_cons] using ih (hs.absorbByte b)

/-- What a stream has absorbed does not depend on the fields outside it. -/
theorem HasAbsorbed.of_sameStream {h0 : Vector Word64 8} {data : List Byte} {s u : State} (hs : s.HasAbsorbed h0 data)
    (h : s.SameStream u) : u.HasAbsorbed h0 data := by
  obtain ⟨eh, et, eb, el⟩ := h
  exact ⟨eh ▸ hs.h_eq, et ▸ hs.t_eq, el ▸ hs.length_eq, eb ▸ hs.buffer_eq⟩

/-- A started stream has absorbed nothing (40_initialization.md R124). -/
theorem startStream_hasAbsorbed (s : State) : s.startStream.HasAbsorbed s.startStream.h [] :=
  ⟨rfl, rfl, rfl, padBlock_nil.symm⟩

/-- The final compression of what was absorbed is the whole-message function (43_finalization.md R200, R201). -/
theorem HasAbsorbed.compressFinal {h0 : Vector Word64 8} {data : List Byte} {s : State} (hs : s.HasAbsorbed h0 data) :
    s.compressFinal.h = hashStream h0 data ∧ s.compressFinal.t = BitVec.ofNat 128 data.length := by
  obtain ⟨hh, ht, hl, hb⟩ := hs
  have hcount : add128 s.t s.bufferLength = BitVec.ofNat 128 data.length := by rw [ht, add128_ofNat, hl]
  have hblock : keepFirst s.bufferLength s.buffer = s.buffer := by
    rw [hb, show s.bufferLength = (data.drop (128 * (blockCount data.length - 1))).length by
      rw [List.length_drop]; omega]
    exact keepFirst_padBlock _
  refine ⟨?_, hcount⟩
  rw [compressFinal_h, hblock, hcount, hh, hb]
  rfl

end State

end Sys2Proof.Machine
end

section
/-! SUPPORT. The stream INIT starts: the chaining state as words of the parameter block (40_initialization.md R121 to R123)
and the key block as the first bytes of the stream (R125). -/

namespace Sys2Proof.Machine

/-- The parameter block byte by byte (R121). -/
theorem getElem_paramBlock (s : State) (i : Nat) (h : i < 64) : s.paramBlock[i] =
    if i = 0 then BitVec.ofNat 8 s.outputLength
    else if i = 1 then BitVec.ofNat 8 s.keyLength
    else if i < 4 then 1
    else if i < 32 then 0
    else if h : i < 48 then s.salt[i - 32]
    else s.personalization[i - 48] := by
  simp [State.paramBlock]

/-- The first parameter word, digest length, key length, fanout and depth (R122). -/
theorem le64_paramBlock_zero (s : State) (ho : s.outputLength < 256) (hk : s.keyLength < 256) :
    le64 (m := 8) s.paramBlock 0 =
      0x01010000 ||| (BitVec.ofNat 64 s.keyLength <<< 8) ||| BitVec.ofNat 64 s.outputLength := by
  have hbyte (n : Nat) (hn : n < 256) : (BitVec.ofNat 8 n).setWidth 64 = BitVec.ofNat 64 n :=
    BitVec.setWidth_ofNat_of_le_of_lt (by omega) hn
  have hconst : (0x01010000 : Word64) = 0x00010000 ||| 0x01000000 := rfl
  calc le64 (m := 8) s.paramBlock 0
      = BitVec.ofNat 64 s.outputLength ||| (BitVec.ofNat 64 s.keyLength <<< 8) ||| 0x00010000 ||| 0x01000000 := by
        simp [le64, getElem_paramBlock, placeField, hbyte _ ho, hbyte _ hk]
    _ = (0x01010000 : Word64) ||| (BitVec.ofNat 64 s.keyLength <<< 8) ||| BitVec.ofNat 64 s.outputLength := by
        rw [hconst]
        ac_rfl

/-- The parameter block as words (R122). -/
theorem paramWords_eq (s : State) (ho : s.outputLength < 256) (hk : s.keyLength < 256) : s.paramWords =
    #v[0x01010000 ||| (BitVec.ofNat 64 s.keyLength <<< 8) ||| BitVec.ofNat 64 s.outputLength, 0, 0, 0,
       (toWords 2 s.salt)[0], (toWords 2 s.salt)[1],
       (toWords 2 s.personalization)[0], (toWords 2 s.personalization)[1]] := by
  ext i hi : 1
  simp only [State.paramWords, getElem_toWords _ _ i hi]
  interval_cases i
  · exact le64_paramBlock_zero s ho hk
  all_goals simp [le64, getElem_paramBlock, placeField, toWords]

/-- The chaining state a stream starts from (R123). -/
theorem startStream_h_eq_startChain (s : State) (ho : s.outputLength < 256) (hk : s.keyLength < 256) :
    s.startStream.h =
      startChain s.outputLength s.keyLength (toWords 2 s.salt) (toWords 2 s.personalization) := by
  rw [State.startStream_h, paramWords_eq s ho hk]
  ext i hi : 1
  rw [Vector.getElem_ofFn]
  interval_cases i <;> simp [startChain]

/-- The words of a salt or personalization that INIT takes from staging, or of its absence (R68, R127). -/
theorem toWords_ite_toBytes {m : Nat} (p : Prop) [Decidable p] (ws : Vector Word64 m) :
    toWords m (if p then toBytes ws else zeros (8 * m)) = if p then ws else Vector.replicate m 0 := by
  have hzero : zeros (8 * m) = toBytes (Vector.replicate m 0) := by
    ext i hi : 1
    rw [getElem_zeros, getElem_toBytes, Vector.getElem_replicate]
    simp [byteLane]
  rw [hzero, ← apply_ite toBytes, toWords_toBytes]

/-- The key block of the first `n` staged bytes (R125). -/
theorem keyBlock_keepFirst (n : Nat) (B : Vector Byte 64) : keyBlock (keepFirst n B) = padBlock (B.toList.take n) := by
  ext i hi : 1
  rw [getElem_keyBlock _ _ hi, getElem_padBlock _ _ hi, List.getD_eq_getElem?_getD, List.getElem?_take]
  by_cases h64 : i < 64
  · rw [dif_pos h64, getElem_keepFirst]
    split <;> simp [h64]
  · rw [dif_neg h64]
    simp [h64]

/-- The message follows the key block (R125). -/
theorem streamBytes_eq_append (key message : List Byte) : streamBytes key message = streamBytes key [] ++ message := by
  unfold streamBytes
  split <;> simp

theorem length_streamBytes (key message : List Byte) :
    (streamBytes key message).length = (if key = [] then 0 else 128) + message.length := by
  unfold streamBytes
  split <;> simp

theorem length_take_toBytes (ws : Vector Word64 8) (n : Nat) (hn : n ≤ 64) : ((toBytes ws).toList.take n).length = n := by
  simp [hn]

/-- No key bytes are taken from staging exactly when KEYLEN is 0. -/
theorem take_toBytes_eq_nil (ws : Vector Word64 8) (n : Byte) (hn : n.toNat ≤ 64) :
    (toBytes ws).toList.take n.toNat = [] ↔ n = 0 := by
  rw [← List.length_eq_zero_iff, length_take_toBytes ws _ hn]
  exact (BitVec.toNat_eq (x := n) (y := 0)).symm

/-! Initialize opens the stream and changes nothing outside it. -/

@[simp] theorem State.runInitialize_pending (s : State) : s.runInitialize.pending = s.pending := by rw [runInitialize_eq]
@[simp] theorem State.runInitialize_out (s : State) : s.runInitialize.out = s.out := by rw [runInitialize_eq]
@[simp] theorem State.runInitialize_configured (s : State) : s.runInitialize.configured = s.configured := by
  rw [runInitialize_eq]
@[simp] theorem State.runInitialize_finalized (s : State) : s.runInitialize.finalized = false := by rw [runInitialize_eq]
@[simp] theorem State.runInitialize_outputLength (s : State) : s.runInitialize.outputLength = s.outputLength := by
  rw [runInitialize_eq]

/-- Initialize leaves a stream that has absorbed the key block when there is a key (R123 to R125). -/
theorem State.runInitialize_hasAbsorbed (s : State) : s.runInitialize.HasAbsorbed s.startStream.h
    (if s.keyLength > 0 then (keyBlock s.key).toList else []) := by
  unfold runInitialize
  split
  · have hkey := s.startStream_hasAbsorbed.absorb (keyBlock s.key).toList
    rwa [List.nil_append] at hkey
  · exact s.startStream_hasAbsorbed

/-- INIT leaves a stream that has absorbed what BLAKE2b's stream has before the message, under the staged key, salt and
personalization (R120 to R127). -/
theorem State.configure_hasAbsorbed (s : State) (outLen keyLen saltLen persLen : Byte) (hk : keyLen.toNat ≤ 64) :
    (s.configure outLen keyLen saltLen persLen).runInitialize.HasAbsorbed
      (startChain outLen.toNat keyLen.toNat
        (if saltLen = 16 then s.saltIn else Vector.replicate 2 0)
        (if persLen = 16 then s.persIn else Vector.replicate 2 0))
      (streamBytes ((toBytes s.keyIn).toList.take keyLen.toNat) []) := by
  have habs := (s.configure outLen keyLen saltLen persLen).runInitialize_hasAbsorbed
  rw [startStream_h_eq_startChain _ outLen.isLt keyLen.isLt, configure_outputLength, configure_keyLength, configure_key,
    configure_salt, configure_personalization] at habs
  have hsalt : toWords 2 (if saltLen = 16 then s.saltStage else zeros 16) =
      if saltLen = 16 then s.saltIn else Vector.replicate 2 0 := toWords_ite_toBytes _ s.saltIn
  have hpers : toWords 2 (if persLen = 16 then s.persStage else zeros 16) =
      if persLen = 16 then s.persIn else Vector.replicate 2 0 := toWords_ite_toBytes _ s.persIn
  have hbytes : (if keyLen.toNat > 0 then (keyBlock (keepFirst keyLen.toNat s.keyStage)).toList else []) =
      streamBytes ((toBytes s.keyIn).toList.take keyLen.toNat) [] := by
    unfold streamBytes
    rw [keyBlock_keepFirst, List.append_nil]
    by_cases h0 : keyLen = 0
    · rw [if_pos ((take_toBytes_eq_nil s.keyIn keyLen hk).mpr h0), if_neg (by simp [h0])]
    · rw [if_neg (mt (take_toBytes_eq_nil s.keyIn keyLen hk).mp h0), if_pos (by bv_omega)]
      rfl
  rwa [hsalt, hpers, hbytes] at habs

end Sys2Proof.Machine
end

section
/-! SUPPORT and the settled obligation of 00_scope.md: the engine serving INIT, UPDATEs and DIGEST computes BLAKE2b of the
whole message. -/

namespace Sys2Proof.Machine

/-- DIGEST on a stream that has absorbed `data`: the counter stands at the length of `data` and OUT holds the hash of `data`
from OFFSET on (43_finalization.md R200 to R203, 10_state.md R43). -/
theorem exec_digest_of_hasAbsorbed (s : State) (offset : Byte) (h0 : Vector Word64 8) (data : List Byte)
    (hcfg : s.configured = true) (hfin : s.finalized = false) (hfit : offset.toNat + s.outputLength ≤ 64)
    (hs : s.HasAbsorbed h0 data) :
    ∃ t : State, exec (.digest offset) s = .next t ∧ t.pending = s.pending ∧ t.finalized = true ∧
      t.t = BitVec.ofNat 128 data.length ∧
      ∀ k : Fin 64, t.out[k] =
        if offset.toNat ≤ k.val ∧ k.val < offset.toNat + s.outputLength then
          (toBytes (hashStream h0 data))[k.val - offset.toNat]
        else s.out[k] := by
  obtain ⟨hh, ht⟩ := hs.compressFinal
  refine ⟨_, exec_digest_fits offset s hcfg hfin hfit, by simp, by simp, by simpa using ht, fun k => ?_⟩
  rw [State.succeed_out, State.closeStream_out, State.writeOut_out, hh, State.compressFinal_outputLength,
    State.compressFinal_out]
  exact getElem_spliceOut _ _ _ _ k

/-- The state INIT leaves with operands it accepts, as far as the stream and the host's side go (40_initialization.md R120 to
R127). -/
theorem exec_init_hasAbsorbed (s : State) (outLen keyLen saltLen persLen : Byte)
    (hacc : initAccepts outLen keyLen saltLen persLen = true) :
    ∃ t : State, exec (.init outLen keyLen saltLen persLen) s = .next t ∧ t.pending = s.pending ∧ t.out = s.out ∧
      t.configured = true ∧ t.finalized = false ∧ t.outputLength = outLen.toNat ∧
      t.HasAbsorbed
        (startChain outLen.toNat keyLen.toNat
          (if saltLen = 16 then s.saltIn else Vector.replicate 2 0)
          (if persLen = 16 then s.persIn else Vector.replicate 2 0))
        (streamBytes ((toBytes s.keyIn).toList.take keyLen.toNat) []) := by
  obtain ⟨_, _, hk, _, _⟩ := (initAccepts_iff _ _ _ _).mp hacc
  refine ⟨_, exec_init_accepted _ _ _ _ s hacc, by simp, by simp, by simp, by simp, by simp, ?_⟩
  exact (s.configure_hasAbsorbed outLen keyLen saltLen persLen hk).of_sameStream ⟨rfl, rfl, rfl, rfl⟩

/-- Settles O40: every step keeps the stream equal to what the bytes absorbed so far make it, from INIT's key block through
the chunks to DIGEST. -/
theorem engineComputesBlake2b : Obligations.EngineComputesBlake2b := by
  unfold Obligations.EngineComputesBlake2b
  intro s outLen keyLen saltLen persLen offset chunks rest ho1 ho64 hk hsl hpl hfit hc hp
  have hacc := (initAccepts_iff outLen keyLen saltLen persLen).mpr ⟨ho1, ho64, hk, hsl, hpl⟩
  obtain ⟨u, hinit, hup, huo, hucfg, hufin, hulen, hu⟩ := exec_init_hasAbsorbed
    { s with pending := chunks.flatMap absorbChunk ++ command (.digest offset) :: rest } outLen keyLen saltLen persLen hacc
  rw [← step_command s _ _ rfl hp] at hinit
  obtain ⟨d, e, hchunks⟩ := run_absorbChunks u chunks (command (.digest offset) :: rest) hucfg hufin hc hup
  obtain ⟨t, hdigest, htp, htf, htt, hto⟩ := exec_digest_of_hasAbsorbed
    { u.absorb chunks.flatten with pending := rest, din := d, lastErr := e } offset _ _ (by simpa using hucfg)
    (by simpa using hufin) (by simpa [hulen] using hfit)
    ((hu.absorb chunks.flatten).of_sameStream ⟨rfl, rfl, rfl, rfl⟩)
  rw [← streamBytes_eq_append] at htt hto
  have hrun : core.run (2 * chunks.length + 2) s = .next t := by
    rw [run_succ_of_step _ _ _ hinit, run_add _ 1 _ _ hchunks]
    exact run_succ_of_step 0 _ _ ((step_command _ (.digest offset) rest rfl rfl).trans hdigest)
  refine ⟨t, hrun, htp, htf, ?_, fun k => ?_⟩
  · rw [htt, length_streamBytes, ite_congr (propext (take_toBytes_eq_nil s.keyIn keyLen hk))
      (fun _ => rfl) (fun _ => rfl)]
  · rw [hto k]
    simp only [State.absorb_outputLength, State.absorb_out, hulen, huo, blake2bBytes, length_take_toBytes s.keyIn _ hk]

end Sys2Proof.Machine
end

section
/-! SUPPORT and the settled obligation on the counter (10_state.md R26, R44): Absorb's count of bytes, and what Initialize leaves
in each field. -/

namespace Sys2Proof.Machine

namespace State

@[simp] theorem runInitialize_t (s : State) : s.runInitialize.t = 0 := by rw [runInitialize_eq]
@[simp] theorem runInitialize_buffer (s : State) :
    s.runInitialize.buffer = if s.keyLength > 0 then keyBlock s.key else zeros 128 := by rw [runInitialize_eq]
@[simp] theorem runInitialize_bufferLength (s : State) :
    s.runInitialize.bufferLength = if s.keyLength > 0 then 128 else 0 := by rw [runInitialize_eq]
@[simp] theorem runInitialize_keyLength (s : State) : s.runInitialize.keyLength = s.keyLength := by rw [runInitialize_eq]
@[simp] theorem runInitialize_key (s : State) : s.runInitialize.key = s.key := by rw [runInitialize_eq]
@[simp] theorem runInitialize_salt (s : State) : s.runInitialize.salt = s.salt := by rw [runInitialize_eq]
@[simp] theorem runInitialize_personalization (s : State) : s.runInitialize.personalization = s.personalization := by
  rw [runInitialize_eq]
@[simp] theorem runInitialize_din (s : State) : s.runInitialize.din = s.din := by rw [runInitialize_eq]
@[simp] theorem runInitialize_reads (s : State) : s.runInitialize.reads = s.reads := by rw [runInitialize_eq]

theorem absorbByte_of_full (s : State) (b : Byte) (h : s.bufferLength = 128) :
    s.absorbByte b = s.compressFull.placeByte b := by
  unfold absorbByte
  rw [if_pos h]

/-- One byte more in counter and buffer together: a compression moves 128 bytes from the buffer to the counter (R44). -/
theorem absorbByte_total (s : State) (b : Byte) (h : s.bufferLength ≤ 128) :
    (s.absorbByte b).t + BitVec.ofNat 128 (s.absorbByte b).bufferLength =
      s.t + BitVec.ofNat 128 (s.bufferLength + 1) := by
  rcases h.lt_or_eq with hlt | hfull
  · rw [absorbByte_of_lt s b hlt, placeByte_t, placeByte_bufferLength]
  · rw [absorbByte_of_full s b hfull, placeByte_t, placeByte_bufferLength, compressFull_t, compressFull_bufferLength,
      hfull, add128, BitVec.add_assoc]
    rfl

theorem absorbByte_bufferLength_pos (s : State) (b : Byte) : 0 < (s.absorbByte b).bufferLength := by
  unfold absorbByte
  split <;> simp

theorem absorbByte_bufferLength_le (s : State) (b : Byte) (h : s.bufferLength ≤ 128) :
    (s.absorbByte b).bufferLength ≤ 128 :=
  absorb_bufferLength_le s [b] h

/-- The counter moves in blocks of 128 (R44); 2^128 is a multiple of 128, so a wrap keeps this. -/
theorem absorbByte_t_mod (s : State) (b : Byte) (ht : s.t.toNat % 128 = 0) : (s.absorbByte b).t.toNat % 128 = 0 := by
  unfold absorbByte
  split
  · simp only [placeByte_t, compressFull_t, add128, BitVec.toNat_add, BitVec.toNat_ofNat]
    omega
  · exact ht

/-- Counter and buffered bytes together count the absorbed bytes (R44). -/
theorem absorb_total (s : State) (bs : List Byte) (h : s.bufferLength ≤ 128) :
    (s.absorb bs).t + BitVec.ofNat 128 (s.absorb bs).bufferLength =
      s.t + BitVec.ofNat 128 (s.bufferLength + bs.length) := by
  induction bs generalizing s with
  | nil => rfl
  | cons b bs ih =>
    rw [absorb_cons, ih _ (absorbByte_bufferLength_le s b h), BitVec.ofNat_add, ← BitVec.add_assoc,
      absorbByte_total s b h, BitVec.add_assoc, ← BitVec.ofNat_add, List.length_cons]
    congr 2
    omega

theorem absorb_t_mod (s : State) (bs : List Byte) (ht : s.t.toNat % 128 = 0) : (s.absorb bs).t.toNat % 128 = 0 := by
  induction bs generalizing s with
  | nil => exact ht
  | cons b bs ih => exact ih _ (absorbByte_t_mod s b ht)

/-- Absorb never empties a buffer: a compression only makes room for a byte that follows (41_update.md R154). -/
theorem absorb_bufferLength_pos (s : State) (bs : List Byte) (h : 0 < s.bufferLength ∨ bs ≠ []) :
    0 < (s.absorb bs).bufferLength := by
  induction bs generalizing s with
  | nil => exact h.resolve_right (absurd rfl)
  | cons b bs ih => exact ih _ (.inl (absorbByte_bufferLength_pos s b))

end State

/-- Settles O29, from the count of one byte by induction over the bytes. -/
theorem counterCountsAbsorbedBytes : Obligations.CounterCountsAbsorbedBytes := by
  unfold Obligations.CounterCountsAbsorbedBytes
  intro s bytes h
  exact ⟨s.absorb_bufferLength_le bytes h, s.absorb_total bytes h, s.absorb_t_mod bytes,
    fun hne => s.absorb_bufferLength_pos bytes (.inr hne)⟩

end Sys2Proof.Machine
end

section
/-! SUPPORT and the settled obligations on the invariant of 10_state.md (R26 to R30, R33 to R35, R44): it holds after power-on
and every command, and so every step, keeps it. -/

namespace Sys2Proof.Machine

namespace State

/-- The invariant does not speak of the staging registers, DIN and the host's lists. -/
theorem Inv.withHostFields {s : State} (hs : s.Inv) (keyIn : Vector Word64 8) (saltIn persIn : Vector Word64 2)
    (din : Word64) (pending : List Transaction) (reads : List Word64) :
    ({ s with keyIn, saltIn, persIn, din, pending, reads } : State).Inv :=
  { hs with }

theorem Inv.raiseError {s : State} (hs : s.Inv) (e : ErrorCode) : (s.raiseError e).Inv :=
  { hs with error_sticky := fun _ => rfl }

theorem Inv.succeed {s : State} (hs : s.Inv) : s.succeed.Inv :=
  { hs with error_sticky := absurd rfl }

theorem Inv.acknowledge {s : State} (hs : s.Inv) : s.acknowledge.Inv :=
  { hs with error_sticky := absurd rfl }

/-- Absorbing into an open stream keeps the invariant (R26, R27, R44). -/
theorem Inv.absorb {s : State} (hs : s.Inv) (hcfg : s.configured = true) (hfin : s.finalized = false)
    (bs : List Byte) : (s.absorb bs).Inv where
  bufferLength_le := s.absorb_bufferLength_le bs hs.bufferLength_le
  buffer_tail := s.absorb_tail bs hs.buffer_tail
  outputLength_le := by simpa using hs.outputLength_le
  outputLength_pos := by simpa using hs.outputLength_pos
  keyLength_le := by simpa using hs.keyLength_le
  key_tail := by simpa using hs.key_tail
  finalized_configured := by simpa using hs.finalized_configured
  finalized_empty := by simp [hfin]
  counter_blocks := fun _ _ => s.absorb_t_mod bs (hs.counter_blocks hcfg hfin)
  keyed_nonempty := fun _ _ hk => s.absorb_bufferLength_pos bs (.inl (hs.keyed_nonempty hcfg hfin (by simpa using hk)))
  error_sticky := by simpa using hs.error_sticky
  unconfigured_blank := by simp [hcfg]

/-- Initialize under a configuration in range opens a stream that meets the invariant, whatever the stream before it
(40_initialization.md R123 to R125). -/
theorem runInitialize_inv (s : State) (hcfg : s.configured = true) (ho1 : 1 ≤ s.outputLength) (ho : s.outputLength ≤ 64)
    (hk : s.keyLength ≤ 64) (hkey : ∀ i : Fin 64, s.keyLength ≤ i.val → s.key[i] = 0) :
    s.runInitialize.succeed.Inv where
  bufferLength_le := by
    rw [succeed_bufferLength, runInitialize_bufferLength]
    split <;> omega
  buffer_tail := by
    intro i
    rw [succeed_bufferLength, runInitialize_bufferLength, succeed_buffer, runInitialize_buffer]
    split
    · omega
    · exact fun _ => getElem_zeros 128 i i.isLt
  outputLength_le := by simpa using ho
  outputLength_pos := by simpa using fun _ => ho1
  keyLength_le := by simpa using hk
  key_tail := by simpa using hkey
  finalized_configured := by simp
  finalized_empty := by simp
  counter_blocks := by simp
  keyed_nonempty := by
    intro _ _ h
    rw [succeed_keyLength, runInitialize_keyLength] at h
    simp [h]
  error_sticky := by simp
  unconfigured_blank := by simp [hcfg]

/-- DIGEST closes and empties the stream (43_finalization.md R203, R204). -/
theorem Inv.digest {s : State} (hs : s.Inv) (hcfg : s.configured = true) (o : Nat) :
    (s.compressFinal.writeOut o).closeStream.succeed.Inv where
  bufferLength_le := by simp
  buffer_tail := fun i _ => getElem_zeros 128 i i.isLt
  outputLength_le := by simpa using hs.outputLength_le
  outputLength_pos := by simpa using hs.outputLength_pos
  keyLength_le := by simpa using hs.keyLength_le
  key_tail := by simpa using hs.key_tail
  finalized_configured := by simpa using hcfg
  finalized_empty := by simp
  counter_blocks := by simp
  keyed_nonempty := by simp
  error_sticky := by simp
  unconfigured_blank := by simp [hcfg]

theorem Inv.eraseKey {s : State} (hs : s.Inv) : s.eraseKey.Inv :=
  { hs with
    buffer_tail := by
      intro i hi
      rw [eraseKey_buffer]
      split
      · exact getElem_zeros 128 i i.isLt
      · exact hs.buffer_tail i hi
    key_tail := fun i _ => getElem_zeros 64 i i.isLt
    unconfigured_blank := by
      intro hcfg
      obtain ⟨hh, ht, hb, ho, hk, -, hblank⟩ := hs.unconfigured_blank hcfg
      exact ⟨hh, ht, hb, ho, hk, rfl, hblank⟩ }

theorem Inv.eraseSalt {s : State} (hs : s.Inv) : s.eraseSalt.Inv :=
  { hs with
    unconfigured_blank := by
      intro hcfg
      obtain ⟨hh, ht, hb, ho, hk, hkey, -, hblank⟩ := hs.unconfigured_blank hcfg
      exact ⟨hh, ht, hb, ho, hk, hkey, rfl, hblank⟩ }

end State

/-- Every command keeps the invariant. -/
theorem exec_keeps_inv {i : Instr} {s t : State} (hs : s.Inv) (h : exec i s = .next t) : t.Inv := by
  obtain ⟨e, -, rfl, -⟩ | ⟨a, b, c, d, rfl, hacc, rfl⟩ | ⟨n, rfl, -, hcfg, hfin, rfl⟩ | ⟨o, rfl, hcfg, -, -, rfl⟩ |
    ⟨rfl, hcfg, rfl⟩ | ⟨rfl, -, rfl⟩ | ⟨rfl, -, rfl⟩ | ⟨rfl, rfl⟩ := exec_cases i s t h
  · exact hs.raiseError e
  · obtain ⟨ho1, ho, hk, -, -⟩ := (initAccepts_iff a b c d).mp hacc
    refine State.runInitialize_inv _ rfl ho1 ho hk fun i hi => ?_
    rw [State.configure_keyLength] at hi
    exact (getElem_keepFirst _ _ i.val i.isLt).trans (if_neg (by omega))
  · exact (hs.absorb hcfg hfin _).succeed
  · exact hs.digest hcfg o.toNat
  · exact State.runInitialize_inv _ hcfg (hs.outputLength_pos hcfg) hs.outputLength_le hs.keyLength_le hs.key_tail
  · exact hs.eraseKey.succeed
  · exact hs.eraseSalt.succeed
  · exact hs.acknowledge

/-- Settles O58: a step is a command, a raised error or a change of host-side fields, and each keeps the invariant. -/
theorem stepKeepsInvariant : Obligations.StepKeepsInvariant := by
  unfold Obligations.StepKeepsInvariant
  intro s t hs h
  obtain ⟨-, rfl⟩ | ⟨i, rest, hexec⟩ | ⟨rest, rfl⟩ | ⟨rest, v, rfl⟩ | ⟨rest, v, rfl⟩ | ⟨rest, k, a, p, rfl⟩ :=
    step_cases s t h
  · exact hs
  · exact exec_keeps_inv (hs.withHostFields _ _ _ _ rest _) hexec
  · exact (hs.withHostFields _ _ _ _ rest _).raiseError .illegalCommand
  · exact hs.withHostFields _ _ _ v rest _
  · exact hs.withHostFields _ _ _ _ rest _
  · exact hs.withHostFields k a p _ rest _

end Sys2Proof.Machine
end

section
/-! SUPPORT and the settled obligations on the key block (10_state.md R45): it stays buffered while the counter of an open keyed
stream is 0, and the next byte or DIGEST compresses it. -/

namespace Sys2Proof.Machine

/-- The key block of a cleared key is an empty buffer (44_teardown_and_status.md R221). -/
theorem keyBlock_zeros : keyBlock (zeros 64) = zeros 128 := by
  ext i hi : 1
  rw [getElem_keyBlock _ _ hi, getElem_zeros]
  split
  · exact getElem_zeros 64 i _
  · rfl

namespace State

/-- When at most 8 bytes absorbed into a nonempty buffer leave the counter at 0, it stood at 0 and the bytes fitted: counter
and buffer together count every byte, and the buffer holds at most 128 of them. -/
theorem absorb_t_eq_zero {s : State} {bs : List Byte} (hb : s.bufferLength ≤ 128) (hpos : 0 < s.bufferLength)
    (hblocks : s.t.toNat % 128 = 0) (hwrap : s.t.toNat + 128 < 2 ^ 128) (hlen : bs.length ≤ 8)
    (ht : (s.absorb bs).t = 0) : s.t = 0 ∧ s.bufferLength + bs.length ≤ 128 := by
  have htotal := congrArg BitVec.toNat (s.absorb_total bs hb)
  have hle := s.absorb_bufferLength_le bs hb
  simp only [ht, BitVec.ofNat_eq_ofNat, BitVec.toNat_add, BitVec.toNat_ofNat] at htotal
  have hzero : s.t.toNat = 0 := by omega
  exact ⟨BitVec.eq_of_toNat_eq hzero, by omega⟩

/-- Initialize leaves the key block in the buffer of a keyed stream (40_initialization.md R125). -/
theorem runInitialize_holdsKeyBlock (s : State) : s.runInitialize.succeed.HoldsKeyBlock := by
  intro _ _ hk _
  rw [succeed_keyLength, runInitialize_keyLength] at hk
  simp [hk]

/-- While the counter stays at 0 a full buffer has taken no byte, so it still holds the key block. -/
theorem HoldsKeyBlock.absorb {s : State} (hs : s.HoldsKeyBlock) (hinv : s.Inv) (hwrap : s.t.toNat + 128 < 2 ^ 128)
    (hcfg : s.configured = true) (hfin : s.finalized = false) (bs : List Byte) (hlen : bs.length ≤ 8) :
    (s.absorb bs).HoldsKeyBlock := by
  intro _ _ hk ht
  rw [absorb_keyLength] at hk
  obtain ⟨ht0, hroom⟩ := absorb_t_eq_zero hinv.bufferLength_le (hinv.keyed_nonempty hcfg hfin hk)
    (hinv.counter_blocks hcfg hfin) hwrap hlen ht
  obtain ⟨hfull, hbuf⟩ := hs hcfg hfin hk ht0
  have hnil : bs = [] := List.eq_nil_of_length_eq_zero (by omega)
  subst hnil
  exact ⟨hfull, hbuf⟩

/-- CLEAR_KEY zeroes the buffered key block with the key (44_teardown_and_status.md R221). -/
theorem HoldsKeyBlock.eraseKey {s : State} (hs : s.HoldsKeyBlock) : s.eraseKey.HoldsKeyBlock := by
  intro hcfg hfin hk ht
  rw [eraseKey_keyLength] at hk
  rw [eraseKey_t] at ht
  refine ⟨(hs hcfg hfin hk ht).1, ?_⟩
  rw [eraseKey_buffer, if_pos ⟨hk, ht⟩, eraseKey_key, keyBlock_zeros]

end State

/-- Every command keeps the key-block property, as long as the counter does not wrap. -/
theorem exec_keeps_holdsKeyBlock {i : Instr} {s t : State} (hinv : s.Inv) (hs : s.HoldsKeyBlock)
    (hwrap : s.t.toNat + 128 < 2 ^ 128) (h : exec i s = .next t) : t.HoldsKeyBlock := by
  obtain ⟨e, -, rfl, -⟩ | ⟨a, b, c, d, rfl, -, rfl⟩ | ⟨n, rfl, hn, hcfg, hfin, rfl⟩ | ⟨o, rfl, -, -, -, rfl⟩ |
    ⟨rfl, -, rfl⟩ | ⟨rfl, -, rfl⟩ | ⟨rfl, -, rfl⟩ | ⟨rfl, rfl⟩ := exec_cases i s t h
  · exact hs
  · exact State.runInitialize_holdsKeyBlock _
  · exact hs.absorb hinv hwrap hcfg hfin _ (by simpa using hn)
  · exact fun _ hfin => absurd hfin (by simp)
  · exact State.runInitialize_holdsKeyBlock _
  · exact hs.eraseKey
  · exact hs
  · exact hs

/-- Settles O59: only UPDATE moves the counter of an open stream, and it leaves 0 with the first byte behind the key block. -/
theorem keyBlockStaysBuffered : Obligations.KeyBlockStaysBuffered := by
  unfold Obligations.KeyBlockStaysBuffered
  intro s t hinv hs hwrap h
  obtain ⟨-, rfl⟩ | ⟨i, rest, hexec⟩ | ⟨rest, rfl⟩ | ⟨rest, v, rfl⟩ | ⟨rest, v, rfl⟩ | ⟨rest, k, a, p, rfl⟩ :=
    step_cases s t h
  · exact hs
  · exact exec_keeps_holdsKeyBlock (hinv.withHostFields _ _ _ _ rest _) hs hwrap hexec
  all_goals exact hs

/-- Settles O57: after power-on the engine is unconfigured, blank and without error. -/
theorem resetMeetsInvariant : Obligations.ResetMeetsInvariant := by
  unfold Obligations.ResetMeetsInvariant
  refine ⟨?_, fun hcfg => absurd hcfg (by decide)⟩
  exact {
    bufferLength_le := Nat.zero_le _
    buffer_tail := fun i _ => getElem_zeros 128 i i.isLt
    outputLength_le := Nat.zero_le _
    outputLength_pos := fun hcfg => absurd hcfg (by decide)
    keyLength_le := Nat.zero_le _
    key_tail := fun i _ => getElem_zeros 64 i i.isLt
    finalized_configured := fun hfin => absurd hfin (by decide)
    finalized_empty := fun hfin => absurd hfin (by decide)
    counter_blocks := fun hcfg => absurd hcfg (by decide)
    keyed_nonempty := fun hcfg => absurd hcfg (by decide)
    error_sticky := absurd rfl
    unconfigured_blank := fun _ => ⟨rfl, rfl, rfl, rfl, rfl, rfl, rfl, rfl, rfl⟩ }

/-- Settles O60: the key block fills the buffer, so the next byte finds it full, and DIGEST pads nothing. -/
theorem nextByteCompressesKeyBlock : Obligations.NextByteCompressesKeyBlock := by
  unfold Obligations.NextByteCompressesKeyBlock
  intro s hs hcfg hfin hk ht
  obtain ⟨hfull, hbuf⟩ := hs hcfg hfin hk ht
  have hcount : add128 s.t 128 = 128 := by rw [ht]; rfl
  refine ⟨fun count h1 h8 => ?_, fun offset hfit => ?_⟩
  · have hne : s.dinBytes count.toNat ≠ [] := List.ne_nil_of_length_pos (by rw [State.dinBytes_length]; omega)
    obtain ⟨hh, htt, hlen, -⟩ := s.compressFull.absorb_fits (s.dinBytes count.toNat) (by simp; omega)
    refine ⟨_, exec_update_open count s h8 hcfg hfin, ?_⟩
    rw [s.absorb_of_full _ hfull hne, State.succeed_t, State.succeed_bufferLength, State.succeed_h, hh, htt, hlen]
    simp [hcount, hbuf]
  · have hpad : keepFirst 128 (keyBlock s.key) = keyBlock s.key :=
      keepFirst_of_tail_zero 128 _ fun i hi => absurd i.isLt (by omega)
    refine ⟨_, exec_digest_fits offset s hcfg hfin hfit, ?_⟩
    simp [hfull, hbuf, hpad, hcount]

end Sys2Proof.Machine
end

section
/-! SUPPORT and the settled obligations on which command changes what (10_state.md R28 to R34, R37, R38): each is read off
`exec_cases`. -/

namespace Sys2Proof.Machine

/-- No command changes DIN or the host's lists of transactions and values (log entries 1 and 2). -/
theorem exec_frame {i : Instr} {s t : State} (h : exec i s = .next t) :
    t.din = s.din ∧ t.pending = s.pending ∧ t.reads = s.reads := by
  obtain ⟨e, -, rfl, -⟩ | ⟨a, b, c, d, rfl, -, rfl⟩ | ⟨n, rfl, -, -, -, rfl⟩ | ⟨o, rfl, -, -, -, rfl⟩ |
    ⟨rfl, -, rfl⟩ | ⟨rfl, -, rfl⟩ | ⟨rfl, -, rfl⟩ | ⟨rfl, rfl⟩ := exec_cases i s t h <;> simp

/-- Settles O54: DIGEST's splice is the only write of OUT. -/
theorem onlyDigestWritesOut : Obligations.OnlyDigestWritesOut := by
  unfold Obligations.OnlyDigestWritesOut
  intro i s t h
  refine ⟨fun hdigest => ?_, (exec_frame h).2⟩
  obtain ⟨e, -, rfl, -⟩ | ⟨a, b, c, d, rfl, -, rfl⟩ | ⟨n, rfl, -, -, -, rfl⟩ | ⟨o, rfl, -, -, -, rfl⟩ |
    ⟨rfl, -, rfl⟩ | ⟨rfl, -, rfl⟩ | ⟨rfl, -, rfl⟩ | ⟨rfl, rfl⟩ := exec_cases i s t h
  case inr.inr.inr.inl => exact absurd rfl (hdigest o)
  all_goals simp

/-- Settles O53: INIT's configuration is the only write of the lengths, the personalization and CONFIGURED. -/
theorem onlyInitChangesConfiguration : Obligations.OnlyInitChangesConfiguration := by
  unfold Obligations.OnlyInitChangesConfiguration
  intro i s t hinit h
  obtain ⟨e, -, rfl, -⟩ | ⟨a, b, c, d, rfl, -, rfl⟩ | ⟨n, rfl, -, -, -, rfl⟩ | ⟨o, rfl, -, -, -, rfl⟩ |
    ⟨rfl, -, rfl⟩ | ⟨rfl, -, rfl⟩ | ⟨rfl, -, rfl⟩ | ⟨rfl, rfl⟩ := exec_cases i s t h
  case inr.inl => exact absurd rfl (hinit a b c d)
  all_goals simp

/-- A command leaves CONFIGURED as it was, or it is an INIT that succeeds (R34). -/
theorem exec_configured {i : Instr} {s t : State} (h : exec i s = .next t) :
    t.configured = s.configured ∨ (t.configured = true ∧ ∃ a b c d, i = .init a b c d ∧ t.lastErr = .ok) := by
  obtain ⟨e, -, rfl, -⟩ | ⟨a, b, c, d, rfl, -, rfl⟩ | ⟨n, rfl, -, -, -, rfl⟩ | ⟨o, rfl, -, -, -, rfl⟩ |
    ⟨rfl, -, rfl⟩ | ⟨rfl, -, rfl⟩ | ⟨rfl, -, rfl⟩ | ⟨rfl, rfl⟩ := exec_cases i s t h
  case inr.inl => exact .inr ⟨by simp, a, b, c, d, rfl, rfl⟩
  all_goals exact .inl (by simp)

/-- Settles O51: a command keeps CONFIGURED or is a successful INIT, and no other step touches it. -/
theorem configuredOnlyByInit : Obligations.ConfiguredOnlyByInit := by
  unfold Obligations.ConfiguredOnlyByInit
  refine ⟨fun s t h hcfg => ?_, fun i s t h hcfg hcfg' => ?_⟩
  · obtain ⟨-, rfl⟩ | ⟨i, rest, hexec⟩ | ⟨rest, rfl⟩ | ⟨rest, v, rfl⟩ | ⟨rest, v, rfl⟩ | ⟨rest, k, a, p, rfl⟩ :=
      step_cases s t h
    case inr.inl => exact (exec_configured hexec).elim (·.trans hcfg) (·.1)
    all_goals exact hcfg
  · obtain hsame | ⟨-, hinit⟩ := exec_configured h
    · simp [hsame, hcfg] at hcfg'
    · exact hinit

/-- Settles O52, command by command; a well-formed UPDATE has COUNT at most 8. -/
theorem unconfiguredEngineRefuses : Obligations.UnconfiguredEngineRefuses := by
  unfold Obligations.UnconfiguredEngineRefuses
  intro i s hwf hcfg hack hinit
  cases i with
  | init a b c d => exact absurd rfl (hinit a b c d)
  | update n => exact exec_update_invalid n s (by simpa [Instr.wellFormed] using hwf) (.inl hcfg)
  | digest o => exact exec_digest_invalid o s (.inl hcfg)
  | reset => exact exec_reset_invalid s hcfg
  | clearKey => exact exec_clearKey_invalid s hcfg
  | clearSalt => exact exec_clearSalt_invalid s hcfg
  | ackErr => exact absurd rfl hack

end Sys2Proof.Machine
end

section
/-! SUPPORT and the settled obligations on the registers as the host reads and writes them (10_state.md R36, R37, R40 to R42,
R46). -/

namespace Sys2Proof.Machine

/-! The outcome of a step that serves a read, by the outcome of the read. -/

theorem access_read_ok {s : State} {offset : BitVec 8} {size : Nat} {v : Word64}
    (hv : busRead s offset size = .ok v) : access (.read offset size) s = .next { s with reads := s.reads ++ [v] } := by
  simp only [access, hv]

theorem access_read_error {s : State} {offset : BitVec 8} {size : Nat} {e : BusError}
    (hv : busRead s offset size = .error e) : access (.read offset size) s = .fault (.busError e) := by
  simp only [access, hv]

theorem step_read_ok {s : State} {offset : BitVec 8} {size : Nat} {rest : List Transaction} {v : Word64}
    (hp : s.pending = .read offset size :: rest) (hv : busRead { s with pending := rest } offset size = .ok v) :
    step s = .next { s with pending := rest, reads := s.reads ++ [v] } :=
  (step_read s offset size rest hp).trans (access_read_ok hv)

theorem step_read_error {s : State} {offset : BitVec 8} {size : Nat} {rest : List Transaction} {e : BusError}
    (hp : s.pending = .read offset size :: rest) (hv : busRead { s with pending := rest } offset size = .error e) :
    step s = .fault (.busError e) :=
  (step_read s offset size rest hp).trans (access_read_error hv)

/-- An access of an aligned slot selects the register that the map gives for it (20_memory.md R61, R62). -/
theorem selectReg_of_slot {offset : BitVec 8} {slot : Nat} {r : Reg} (ho : offset.toNat = 8 * slot)
    (hr : regOfSlot slot = some r) : selectReg offset 8 = .ok r := by
  rw [selectReg_aligned offset (by omega), show offset.toNat / 8 = slot by omega, hr]

theorem busWrite_of_selectReg {s : State} {offset : BitVec 8} {size : Nat} {v : Word64} {r : Reg}
    (hr : selectReg offset size = .ok r) : busWrite s offset size v = writeReg s v r := by
  unfold busWrite
  rw [hr]

theorem regOfSlot_keyIn (k : Fin 8) : regOfSlot (8 + k.val) = some (.keyIn k) := by decide +revert
theorem regOfSlot_saltIn (k : Fin 2) : regOfSlot (16 + k.val) = some (.saltIn k) := by decide +revert
theorem regOfSlot_persIn (k : Fin 2) : regOfSlot (18 + k.val) = some (.persIn k) := by decide +revert

/-- A pending write of an aligned slot is a write of that slot's register. -/
theorem step_write_slot {s : State} {a slot : Nat} {v : Word64} {rest : List Transaction} {r : Reg}
    (hp : s.pending = .write (BitVec.ofNat 8 a) 8 v :: rest) (ha : a = 8 * slot) (hslot : slot < 32)
    (hr : regOfSlot slot = some r) : step s = writeReg { s with pending := rest } v r := by
  have ho : (BitVec.ofNat 8 a).toNat = 8 * slot := by
    rw [BitVec.toNat_ofNat]
    omega
  rw [step_write s _ 8 v rest hp, busWrite_of_selectReg (selectReg_of_slot ho hr)]

/-- Settles O13: each staging offset is 8 times the slot of its register. -/
theorem stagingWriteOnlyStores : Obligations.StagingWriteOnlyStores := by
  unfold Obligations.StagingWriteOnlyStores
  intro s v rest
  refine ⟨fun k hp => ?_, fun k hp => ?_, fun k hp => ?_⟩
  · exact step_write_slot hp (by omega) (by omega) (regOfSlot_keyIn k)
  · exact step_write_slot hp (by omega) (by omega) (regOfSlot_saltIn k)
  · exact step_write_slot hp (by omega) (by omega) (regOfSlot_persIn k)

/-- No word written to CMD, legal or not, changes DIN (R37). -/
theorem runCommand_din {w : Word64} {s t : State} (h : runCommand w s = .next t) : t.din = s.din := by
  unfold runCommand at h
  split at h
  · exact (exec_frame h).1
  · cases h
    rfl

/-- Settles O12: a DIN write and a DIN read as two steps. -/
theorem dinHoldsLastWrite : Obligations.DinHoldsLastWrite := by
  unfold Obligations.DinHoldsLastWrite
  refine ⟨fun s v rest hp => ?_, fun w s t h => runCommand_din h⟩
  have hwrite := step_wr_din s v (.read 0x010 8 :: rest) hp
  have hread : step { s with pending := .read 0x010 8 :: rest, din := v } =
      .next { s with pending := rest, din := v, reads := s.reads ++ [v] } := step_read_ok rfl rfl
  rw [run_succ_of_step _ _ _ hwrite, run_succ_of_step _ _ _ hread]
  rfl

/-- STATUS depends on its fields alone (R40). -/
theorem status_congr {s u : State} (hc : s.configured = u.configured) (hf : s.finalized = u.finalized)
    (hs : s.errSticky = u.errSticky) (he : s.lastErr = u.lastErr) (hb : s.bufferLength = u.bufferLength)
    (ho : s.outputLength = u.outputLength) (hk : s.keyLength = u.keyLength) : s.status = u.status := by
  unfold State.status
  rw [hc, hf, hs, he, hb, ho, hk]

/-- What a register read returns depends on STATUS, the counter, DIN and OUT alone (R46). -/
theorem readReg_congr {s u : State} (hstatus : s.status = u.status) (ht : s.t = u.t) (hd : s.din = u.din)
    (ho : s.out = u.out) (r : Reg) : readReg s r = readReg u r := by
  cases r with
  | status => exact congrArg Except.ok hstatus
  | din => exact congrArg Except.ok hd
  | tLo => exact congrArg (fun t => Except.ok (tLow t)) ht
  | tHi => exact congrArg (fun t => Except.ok (tHigh t)) ht
  | out k => exact congrArg (fun out => Except.ok (toWords 8 out)[k]) ho
  | cmd | keyIn k | saltIn k | persIn k => rfl

theorem busRead_congr {s u : State} (hreg : ∀ r, readReg s r = readReg u r) (offset : BitVec 8) (size : Nat) :
    busRead s offset size = busRead u offset size := by
  unfold busRead
  split
  · rfl
  · exact hreg _

/-- Settles O16: both engines answer the read alike, with the same bus error or the same value. -/
theorem secretsAreNotReadable : Obligations.SecretsAreNotReadable := by
  unfold Obligations.SecretsAreNotReadable
  intro s u offset size rest hps hpu hc hf hst he hb hol hk ht hd ho
  have hread : busRead { s with pending := rest } offset size = busRead { u with pending := rest } offset size :=
    busRead_congr (readReg_congr (status_congr hc hf hst he hb hol hk) ht hd ho) offset size
  cases hv : busRead { u with pending := rest } offset size with
  | error e => exact .inl ⟨.busError e, step_read_error hps (hread.trans hv), step_read_error hpu hv⟩
  | ok v => exact .inr ⟨v, step_read_ok hps (hread.trans hv), step_read_ok hpu hv⟩

/-- Settles O6: a word that decodes is executed by the step that serves its write. -/
theorem stepRunsDecodedCommand : Obligations.StepRunsDecodedCommand := by
  unfold Obligations.StepRunsDecodedCommand
  have hstep (s : State) (w : Word64) (i : Instr) (rest : List Transaction)
      (hp : s.pending = .write 0x00 8 w :: rest) (hw : decode w = .ok i) : step s = exec i { s with pending := rest } := by
    rw [step_write s 0x00 8 w rest hp, busWrite_cmd, runCommand_of_decode _ w i hw]
  exact ⟨hstep, fun i s n hn => hstep _ _ i s.pending rfl hn⟩

/-- Settles O11: both halves are read-only registers of the counter. -/
theorem counterHalvesRead : Obligations.CounterHalvesRead := by
  unfold Obligations.CounterHalvesRead
  refine ⟨fun s rest => ⟨fun hp => step_read_ok hp rfl, fun hp => step_read_ok hp rfl, ?_⟩, rfl⟩
  rintro v (hp | hp)
  · exact ⟨_, step_write s 0x018 8 v rest hp⟩
  · exact ⟨_, step_write s 0x020 8 v rest hp⟩

end Sys2Proof.Machine
end

section
/-! SUPPORT and the settled obligation on STATUS (10_state.md R40): its fields as parts of the word, each read at its own place. -/

namespace Sys2Proof.Machine

/-! A field placed in a word: what is read at the same and at another place. -/

theorem getLsbD_placeField {n : Nat} (lo : Nat) (v : BitVec n) (i : Nat) (hi : i < 64) :
    (placeField lo v).getLsbD i = (decide (lo ≤ i) && v.getLsbD (i - lo)) := by
  unfold placeField
  rw [BitVec.getLsbD_shiftLeft, BitVec.getLsbD_setWidth]
  by_cases h : lo ≤ i
  · simp [h, hi, show i - lo < 64 by omega]
  · simp [h, hi]

/-- The field where `v` was placed reads `v`. -/
theorem extractLsb'_placeField_same {n : Nat} (lo : Nat) (v : BitVec n) (h : lo + n ≤ 64) :
    (placeField lo v).extractLsb' lo n = v := by
  apply BitVec.eq_of_getLsbD_eq
  intro i hi
  rw [BitVec.getLsbD_extractLsb', getLsbD_placeField _ _ _ (by omega)]
  simp [hi]

/-- A field apart from the one where `v` was placed reads 0. -/
theorem extractLsb'_placeField_apart {n : Nat} (lo : Nat) (v : BitVec n) (start len : Nat) (h : start + len ≤ 64)
    (hapart : start + len ≤ lo ∨ lo + n ≤ start) : (placeField lo v).extractLsb' start len = 0 := by
  apply BitVec.eq_of_getLsbD_eq
  intro i hi
  rw [BitVec.getLsbD_extractLsb', getLsbD_placeField _ _ _ (by omega)]
  rcases hapart with hlo | hhi
  · simp [show ¬ lo ≤ start + i by omega]
  · simp [BitVec.getLsbD_of_ge v (start + i - lo) (by omega)]

/-- The fields of STATUS, each at its place, and zeros in the reserved ranges (R40). -/
theorem status_fields (s : State) :
    s.status.extractLsb' 0 1 = BitVec.ofBool s.configured ∧ s.status.extractLsb' 1 1 = BitVec.ofBool s.finalized ∧
    s.status.extractLsb' 2 1 = BitVec.ofBool s.errSticky ∧ s.status.extractLsb' 3 5 = 0 ∧
    s.status.extractLsb' 8 3 = s.lastErr.code ∧ s.status.extractLsb' 11 5 = 0 ∧
    s.status.extractLsb' 16 8 = BitVec.ofNat 8 s.bufferLength ∧
    s.status.extractLsb' 24 8 = BitVec.ofNat 8 s.outputLength ∧
    s.status.extractLsb' 32 8 = BitVec.ofNat 8 s.keyLength ∧ s.status.extractLsb' 40 24 = 0 := by
  simp only [State.status, BitVec.extractLsb'_or]
  refine ⟨?_, ?_, ?_, ?_, ?_, ?_, ?_, ?_, ?_, ?_⟩ <;>
    simp [extractLsb'_placeField_same, extractLsb'_placeField_apart]

theorem getLsbD_of_extractLsb'_one {w : Word64} {i : Nat} {b : Bool} (h : w.extractLsb' i 1 = BitVec.ofBool b) :
    w.getLsbD i = b := by
  rw [BitVec.getLsbD_eq_extractLsb', h]
  cases b <;> rfl

theorem toNat_of_eq_ofNat {x : Byte} {n : Nat} (h : x = BitVec.ofNat 8 n) (hn : n < 256) : x.toNat = n := by
  rw [h, BitVec.toNat_ofNat, Nat.mod_eq_of_lt hn]

/-- Settles O10: lengths in range fit their byte of STATUS. -/
theorem statusReadLayout : Obligations.StatusReadLayout := by
  unfold Obligations.StatusReadLayout
  refine ⟨by decide, ⟨rfl, rfl, rfl, rfl, rfl⟩, fun s rest hp hb ho hk => ?_,
    fun s v rest hp => ⟨_, step_write s 0x008 8 v rest hp⟩⟩
  obtain ⟨hcfg, hfin, hsticky, hrsv3, herr, hrsv11, hbuflen, houtlen, hkeylen, hrsv40⟩ := status_fields s
  exact ⟨s.status, step_read_ok hp rfl, getLsbD_of_extractLsb'_one hcfg, getLsbD_of_extractLsb'_one hfin,
    getLsbD_of_extractLsb'_one hsticky, hrsv3, herr, hrsv11, toNat_of_eq_ofNat hbuflen (by omega),
    toNat_of_eq_ofNat houtlen (by omega), toNat_of_eq_ofNat hkeylen (by omega), hrsv40⟩

end Sys2Proof.Machine
end

section
/-! SUPPORT and the settled obligations on the register interface (20_memory.md R61 to R64, R70, R72, R73): every command
completes, which accesses are refused, and what a read does and leaves unchanged. -/

namespace Sys2Proof.Machine

/-! Every command completes. -/

/-- A command ends in a next state whatever its operands and the state (60_exceptions.md R254, R256). -/
theorem exec_completes (i : Instr) (s : State) : ∃ t, exec i s = .next t := by
  cases i with
  | init a b c d =>
    by_cases ha : initAccepts a b c d = true
    · exact ⟨_, exec_init_accepted a b c d s ha⟩
    · exact ⟨_, exec_init_rejected a b c d s ha⟩
  | update n =>
    by_cases hn : 8 < n.toNat
    · exact ⟨_, exec_update_illegal n s hn⟩
    · by_cases hs : s.configured = false ∨ s.finalized = true
      · exact ⟨_, exec_update_invalid n s (by omega) hs⟩
      · simp only [not_or, Bool.not_eq_false, Bool.not_eq_true] at hs
        exact ⟨_, exec_update_open n s (by omega) hs.1 hs.2⟩
  | digest o =>
    by_cases hs : s.configured = false ∨ s.finalized = true
    · exact ⟨_, exec_digest_invalid o s hs⟩
    · simp only [not_or, Bool.not_eq_false, Bool.not_eq_true] at hs
      by_cases ho : 64 < o.toNat + s.outputLength
      · exact ⟨_, exec_digest_small o s hs.1 hs.2 ho⟩
      · exact ⟨_, exec_digest_fits o s hs.1 hs.2 (by omega)⟩
  | reset =>
    cases hc : s.configured with
    | false => exact ⟨_, exec_reset_invalid s hc⟩
    | true => exact ⟨_, exec_reset_configured s hc⟩
  | clearKey =>
    cases hc : s.configured with
    | false => exact ⟨_, exec_clearKey_invalid s hc⟩
    | true => exact ⟨_, exec_clearKey_configured s hc⟩
  | clearSalt =>
    cases hc : s.configured with
    | false => exact ⟨_, exec_clearSalt_invalid s hc⟩
    | true => exact ⟨_, exec_clearSalt_configured s hc⟩
  | ackErr => exact ⟨_, rfl⟩

/-- Settles O49: a legal word runs a command, any other raises ILLEGAL_COMMAND. -/
theorem everyCommandCompletes : Obligations.EveryCommandCompletes := by
  unfold Obligations.EveryCommandCompletes
  intro w s
  unfold runCommand
  split
  · exact exec_completes _ s
  · exact ⟨_, rfl⟩

/-! Which accesses are refused: the registers by access right, then the offsets. -/

/-- The registers a host may read (R61). -/
def Reg.readable : Reg → Bool
  | .status | .din | .tLo | .tHi | .out _ => true
  | .cmd | .keyIn _ | .saltIn _ | .persIn _ => false

/-- The registers a host may write (R61). -/
def Reg.writable : Reg → Bool
  | .cmd | .din | .keyIn _ | .saltIn _ | .persIn _ => true
  | .status | .tLo | .tHi | .out _ => false

theorem readReg_refused_iff (s : State) (r : Reg) : (∃ e, readReg s r = .error e) ↔ r.readable = false := by
  cases r <;> simp [readReg, Reg.readable]

theorem writeReg_refused_iff (s : State) (v : Word64) (r : Reg) :
    (∃ e, writeReg s v r = .fault (.busError e)) ↔ r.writable = false := by
  cases r with
  | cmd =>
    obtain ⟨t, ht⟩ := everyCommandCompletes v s
    simp [writeReg, ht, Reg.writable]
  | status | din | tLo | tHi | keyIn k | saltIn k | persIn k | out k => simp [writeReg, Reg.writable]

/-- A right is denied to every register an access names exactly when the access has the wrong size, is misaligned, or is of a
slot that holds no register with that right. -/
theorem forall_selectReg_iff (right : Reg → Bool) (offset : BitVec 8) (size : Nat) :
    (∀ r, selectReg offset size = .ok r → right r = false) ↔
      size ≠ 8 ∨ offset.toNat % 8 ≠ 0 ∨ (regOfSlot (offset.toNat / 8)).any right = false := by
  by_cases hsize : size = 8
  · subst hsize
    by_cases halign : offset.toNat % 8 = 0
    · rw [selectReg_aligned offset halign]
      cases regOfSlot (offset.toNat / 8) <;> simp [halign]
    · simp [selectReg_misaligned offset halign, halign]
  · simp [selectReg_wrongSize offset size hsize, hsize]

theorem busRead_refused_iff (s : State) (offset : BitVec 8) (size : Nat) :
    (∃ e, busRead s offset size = .error e) ↔ ∀ r, selectReg offset size = .ok r → r.readable = false := by
  unfold busRead
  cases selectReg offset size with
  | error e => simp
  | ok r => simpa using readReg_refused_iff s r

theorem busWrite_refused_iff (s : State) (offset : BitVec 8) (size : Nat) (v : Word64) :
    (∃ e, busWrite s offset size v = .fault (.busError e)) ↔
      ∀ r, selectReg offset size = .ok r → r.writable = false := by
  unfold busWrite
  cases selectReg offset size with
  | error e => simp
  | ok r => simpa using writeReg_refused_iff s v r

/-- A step that serves a read is a fault exactly when the read is refused (R64). -/
theorem step_read_refused_iff {s : State} {offset : BitVec 8} {size : Nat} {rest : List Transaction}
    (hp : s.pending = .read offset size :: rest) :
    (∃ e, step s = .fault (.busError e)) ↔ ∃ e, busRead { s with pending := rest } offset size = .error e := by
  cases hv : busRead { s with pending := rest } offset size with
  | error e => simp [step_read_error hp hv]
  | ok v => simp [step_read_ok hp hv]

/-- The slots with no readable register: CMD, the reserved ranges and staging (R61). -/
theorem slot_unreadable_iff : ∀ slot < 32, (regOfSlot slot).any Reg.readable = false ↔
    slot = 0 ∨ (5 ≤ slot ∧ slot ≤ 7) ∨ (8 ≤ slot ∧ slot ≤ 19) ∨ (20 ≤ slot ∧ slot ≤ 23) := by decide

/-- The slots with no writable register: STATUS, T_LO, T_HI, the reserved ranges and OUT (R61). -/
theorem slot_unwritable_iff : ∀ slot < 32, (regOfSlot slot).any Reg.writable = false ↔
    slot = 1 ∨ slot = 3 ∨ slot = 4 ∨ (5 ≤ slot ∧ slot ≤ 7) ∨ (20 ≤ slot ∧ slot ≤ 23) ∨ 24 ≤ slot := by decide

/-- A bus address in no engine's window reaches no engine (R63). -/
theorem Platform.route_eq_none {p : Platform} {addr : Nat}
    (h : ∀ k, k < p.engines.length → ¬ (Config.engineBase k ≤ addr ∧ addr < Config.engineBase k + 256)) :
    p.route addr = none := by
  simpa [Platform.route, inWindow] using h

/-- Settles O7: the refused accesses are read off the slots of the register map. -/
theorem busErrorsExactly : Obligations.BusErrorsExactly := by
  unfold Obligations.BusErrorsExactly
  refine ⟨fun s offset size rest hp => ?_, fun s offset size v rest hp => ?_, fun p addr size v hout => ?_⟩
  · rw [step_read_refused_iff hp, busRead_refused_iff, forall_selectReg_iff, slot_unreadable_iff _ (by omega)]
    omega
  · rw [step_write s offset size v rest hp, busWrite_refused_iff, forall_selectReg_iff, slot_unwritable_iff _ (by omega)]
    omega
  · simp [Platform.read, Platform.write, Platform.route_eq_none hout]

/-- Settles O8: the platform passes the refusal on and sets no engine. -/
theorem busErrorLeavesEnginesAlone : Obligations.BusErrorLeavesEnginesAlone := by
  unfold Obligations.BusErrorLeavesEnginesAlone
  intro p addr size k s e hroute hengine
  refine ⟨fun hread => ?_, fun v hwrite => ?_⟩
  · simp only [Platform.read, hroute, hengine, hread]
  · simp only [Platform.write, hroute, hengine, hwrite]

/-! A read has no side effect. -/

/-- A read does not look at the host's own lists (log entries 1 and 2). -/
theorem busRead_congr_env (s : State) (pending : List Transaction) (reads : List Word64) (offset : BitVec 8) (size : Nat) :
    busRead { s with pending := pending, reads := reads } offset size = busRead s offset size :=
  busRead_congr (readReg_congr rfl rfl rfl rfl) offset size

/-- A step that serves a read and does not fault records the value read and changes nothing else (R73). -/
theorem eq_of_step_read {s t : State} {offset : BitVec 8} {size : Nat} {rest : List Transaction}
    (hp : s.pending = .read offset size :: rest) (h : step s = .next t) :
    ∃ v, busRead s offset size = .ok v ∧ t = { s with pending := rest, reads := s.reads ++ [v] } := by
  have henv := busRead_congr_env s rest s.reads offset size
  cases hv : busRead s offset size with
  | error e => simp [step_read_error hp (henv.trans hv)] at h
  | ok v =>
    rw [step_read_ok hp (henv.trans hv)] at h
    cases h
    exact ⟨v, rfl, rfl⟩

/-- A run that does not stop took its first step (70_reset_and_hazards.md R289). -/
theorem exists_step_of_run {n : Nat} {s t : State} (h : core.run (n + 1) s = .next t) :
    ∃ u, step s = .next u ∧ core.run n u = .next t := by
  cases hs : step s with
  | next u => exact ⟨u, rfl, (run_succ_of_step n s u hs).symm.trans h⟩
  | fault r | refused r =>
    have hc : core.step s = _ := hs
    simp [Host.Core.run, hc] at h

/-- Settles O15: the second read finds what the first one found. -/
theorem readsHaveNoSideEffect : Obligations.ReadsHaveNoSideEffect := by
  unfold Obligations.ReadsHaveNoSideEffect
  refine ⟨fun s t offset size rest hp h => ?_, fun s t offset size rest hp h => ?_⟩
  · obtain ⟨v, -, rfl⟩ := eq_of_step_read hp h
    exact ⟨v, rfl⟩
  · obtain ⟨u, hfirst, hrun⟩ := exists_step_of_run h
    obtain ⟨v, hv, rfl⟩ := eq_of_step_read hp hfirst
    obtain ⟨u', hsecond, hend⟩ := exists_step_of_run hrun
    obtain ⟨v', hv', rfl⟩ := eq_of_step_read rfl hsecond
    obtain rfl : v' = v := by simpa [busRead_congr_env, hv] using hv'.symm
    cases hend
    exact ⟨v', by simp⟩

/-! The output window. -/

theorem regOfSlot_out (k : Fin 8) : regOfSlot (24 + k.val) = some (.out k) := by decide +revert

/-- A read of OUTk returns the word of output bytes 8k..8k+7 (R70). -/
theorem busRead_out (s : State) (k : Fin 8) :
    busRead s (BitVec.ofNat 8 (0x0C0 + 8 * k.val)) 8 = .ok (le64 (m := 8) s.out k) := by
  have ho : (BitVec.ofNat 8 (0x0C0 + 8 * k.val)).toNat = 8 * (24 + k.val) := by
    rw [BitVec.toNat_ofNat]
    omega
  unfold busRead
  rw [selectReg_of_slot ho (regOfSlot_out k)]
  exact congrArg Except.ok (getElem_toWords 8 s.out k.val k.isLt)

/-- A whole digest of 64 bytes written from byte 0 fills the window (43_finalization.md R202). -/
theorem spliceOut_whole (digest old : Vector Byte 64) : spliceOut 0 64 digest old = digest := by
  ext k hk : 1
  simp [spliceOut]

/-- A window that holds the bytes of `h` reads as the words of `h` (20_memory.md R66). -/
theorem readReg_out_of_eq_toBytes {s : State} (hout : s.out = toBytes s.h) (k : Fin 8) :
    readReg s (.out k) = .ok s.h[k] := by
  have hwords : toWords 8 s.out = s.h := (congrArg (toWords 8) hout).trans (toWords_toBytes s.h)
  exact congrArg (fun ws : Vector Word64 8 => Except.ok ws[k]) hwords

/-- Settles O14: a whole digest leaves the bytes of `h` in the window, and reading them as words gives `h` back. -/
theorem outWindowRead : Obligations.OutWindowRead := by
  unfold Obligations.OutWindowRead
  refine ⟨fun s k rest hp => ?_, fun s hcfg hfin hlen => ?_⟩
  · refine ⟨le64 (m := 8) s.out k, step_read_ok hp (busRead_out _ k), fun j => ?_⟩
    exact byteLane_le64 (m := 8) s.out k j.val j.isLt
  · refine ⟨_, exec_digest_fits 0 s hcfg hfin (by simp [hlen]), fun k => ?_⟩
    have hout : spliceOut 0 64 (toBytes s.compressFinal.h) s.out = toBytes s.compressFinal.h := spliceOut_whole _ _
    exact readReg_out_of_eq_toBytes (by simpa [hlen] using hout) k

end Sys2Proof.Machine
end

section
/-! SUPPORT and the settled obligations on the command words (30_encoding.md R91 to R98): `decode` and `encode` are inverse to
each other on legal words, and the match and mask table and the list of illegal words are read off the fields. -/

namespace Sys2Proof

/-! A command word by its fields. -/

/-- A word is determined by its six fields (R91). -/
theorem eq_iff_fields_eq (x y : Word64) :
    x = y ↔ opField x = opField y ∧ f1Field x = f1Field y ∧ f2Field x = f2Field y ∧ f3Field x = f3Field y ∧
      f4Field x = f4Field y ∧ rsvField x = rsvField y := by
  constructor
  · rintro rfl
    exact ⟨rfl, rfl, rfl, rfl, rfl, rfl⟩
  · rintro ⟨hop, h1, h2, h3, h4, hr⟩
    exact eq_of_fields_eq x y hop h1 h2 h3 h4 hr

/-- The packed words are those with RSV = 0. -/
theorem packFields_eq_iff (op a b c d : Byte) (w : Word64) :
    packFields op a b c d = w ↔ opField w = op ∧ f1Field w = a ∧ f2Field w = b ∧ f3Field w = c ∧ f4Field w = d ∧
      rsvField w = 0 := by
  rw [eq_comm, eq_iff_fields_eq]
  simp

/-- F2, F3 and F4 are bits 39:16 of the word. -/
theorem tailClear_iff_bits (w : Word64) : tailClear w = true ↔ w.extractLsb' 16 24 = 0 := by
  rw [tailClear_iff]
  simp only [f2Field, f3Field, f4Field, ← BitVec.toNat_inj, BitVec.extractLsb'_toNat, Nat.shiftRight_eq_div_pow,
    BitVec.ofNat_eq_ofNat, BitVec.toNat_ofNat, Nat.zero_mod, Nat.reducePow]
  omega

/-- The operand fields are bits 39:8 of the word. -/
theorem operandsClear_iff_bits (w : Word64) : operandsClear w = true ↔ w.extractLsb' 8 32 = 0 := by
  rw [operandsClear_iff]
  simp only [f1Field, f2Field, f3Field, f4Field, ← BitVec.toNat_inj, BitVec.extractLsb'_toNat,
    Nat.shiftRight_eq_div_pow, BitVec.ofNat_eq_ofNat, BitVec.toNat_ofNat, Nat.zero_mod, Nat.reducePow]
  omega

/-! The commands without operands, and what `decode` answers for each opcode. -/

/-- RESET, CLEAR_KEY, CLEAR_SALT and ACK_ERR (R93). -/
def Instr.isBare : Instr → Bool
  | .reset | .clearKey | .clearSalt | .ackErr => true
  | .init .. | .update _ | .digest _ => false

theorem encode_of_isBare {i : Instr} (hi : i.isBare = true) : encode i = packFields i.opcode 0 0 0 0 := by
  cases i <;> simp_all [Instr.isBare, encode, Instr.opcode]

theorem wellFormed_of_isBare {i : Instr} (hi : i.isBare = true) : i.wellFormed = true := by
  cases i <;> simp_all [Instr.isBare, Instr.wellFormed]

theorem opcode_of_isBare {i : Instr} (hi : i.isBare = true) : 4 ≤ i.opcode.toNat ∧ i.opcode.toNat ≤ 7 := by
  cases i <;> simp_all [Instr.isBare, Instr.opcode]

/-- The rows of the opcode table (R93). -/
theorem opcode_cases (op : Byte) :
    op = 1 ∨ op = 2 ∨ op = 3 ∨ (∃ i : Instr, i.isBare = true ∧ op = i.opcode) ∨ op.toNat = 0 ∨ 8 ≤ op.toNat := by
  have hop : op = 1 ∨ op = 2 ∨ op = 3 ∨ (op = 4 ∨ op = 5 ∨ op = 6 ∨ op = 7) ∨ op.toNat = 0 ∨ 8 ≤ op.toNat := by
    bv_omega
  refine hop.imp_right (.imp_right (.imp_right (.imp_left ?_)))
  rintro (h | h | h | h)
  · exact ⟨.reset, rfl, h⟩
  · exact ⟨.clearKey, rfl, h⟩
  · exact ⟨.clearSalt, rfl, h⟩
  · exact ⟨.ackErr, rfl, h⟩

theorem decode_of_rsv {w : Word64} (hr : rsvField w ≠ 0) : decode w = .error .reservedBits := if_pos hr

theorem decode_of_init {w : Word64} (hr : rsvField w = 0) (hop : opField w = 1) :
    decode w = .ok (.init (f1Field w) (f2Field w) (f3Field w) (f4Field w)) := by
  simp [decode, hr, hop]

theorem decode_of_update {w : Word64} (hr : rsvField w = 0) (hop : opField w = 2) :
    decode w = if tailClear w then
        if (f1Field w).toNat ≤ 8 then .ok (.update (f1Field w)) else .error .countTooLarge
      else .error .unusedField := by
  simp [decode, hr, hop]

theorem decode_of_digest {w : Word64} (hr : rsvField w = 0) (hop : opField w = 3) :
    decode w = if tailClear w then .ok (.digest (f1Field w)) else .error .unusedField := by
  simp [decode, hr, hop]

theorem decode_of_bare {w : Word64} {i : Instr} (hr : rsvField w = 0) (hi : i.isBare = true)
    (hop : opField w = i.opcode) : decode w = bareCommand w i := by
  cases i <;> simp_all [decode, Instr.isBare, Instr.opcode]

theorem decode_of_unknown {w : Word64} (hr : rsvField w = 0) (hop : (opField w).toNat = 0 ∨ 8 ≤ (opField w).toNat) :
    decode w = .error .unknownOpcode := by
  have hne (k : Byte) (hlo : 0 < k.toNat) (hhi : k.toNat < 8) : opField w ≠ k := by
    rintro rfl
    omega
  simp [decode, hr, hne]

/-! Decoding and encoding. -/

/-- Settles O2: `decode` reads back the fields that `encode` packs. -/
theorem decodeOfEncodeIsIdentity : Obligations.DecodeOfEncodeIsIdentity := decode_encode

/-- A word that decodes is the word of a well-formed command. -/
theorem encode_of_decode {w : Word64} {i : Instr} (h : decode w = .ok i) : i.wellFormed = true ∧ encode i = w := by
  by_cases hr : rsvField w = 0
  case neg => simp [decode_of_rsv hr] at h
  rcases opcode_cases (opField w) with hop | hop | hop | ⟨j, hj, hop⟩ | hop
  · rw [decode_of_init hr hop] at h
    cases h
    exact ⟨rfl, by simp [encode, packFields_eq_iff, hr, hop]⟩
  · simp only [decode_of_update hr hop] at h
    split at h
    · split at h
      · cases h
        simp_all [Instr.wellFormed, encode, packFields_eq_iff, tailClear_iff]
      · cases h
    · cases h
  · simp only [decode_of_digest hr hop] at h
    split at h
    · cases h
      simp_all [Instr.wellFormed, encode, packFields_eq_iff, tailClear_iff]
    · cases h
  · rw [decode_of_bare hr hj hop, bareCommand_eq_ok, operandsClear_iff] at h
    obtain ⟨⟨h1, h2, h3, h4⟩, rfl⟩ := h
    exact ⟨wellFormed_of_isBare hj, by simp [encode_of_isBare hj, packFields_eq_iff, *]⟩
  · simp [decode_of_unknown hr hop] at h

/-- Settles O3: every branch of `decode` that accepts has fixed all six fields of the word. -/
theorem decodedWordEncodesBack : Obligations.DecodedWordEncodesBack := fun _ _ => encode_of_decode

/-- The legal words are the words of the well-formed commands, and each decodes to its own command (R97). -/
theorem decode_eq_ok_iff (w : Word64) (i : Instr) : decode w = .ok i ↔ i.wellFormed = true ∧ encode i = w :=
  ⟨encode_of_decode, fun ⟨hi, hw⟩ => hw ▸ decode_encode i hi⟩

/-! The match and mask table: a mask keeps or clears each field as a whole. -/

theorem and_eq_packFields_iff (w m : Word64) (op : Byte) :
    w &&& m = packFields op 0 0 0 0 ↔ opField w &&& opField m = op ∧ f1Field w &&& f1Field m = 0 ∧
      f2Field w &&& f2Field m = 0 ∧ f3Field w &&& f3Field m = 0 ∧ f4Field w &&& f4Field m = 0 ∧
      rsvField w &&& rsvField m = 0 := by
  rw [eq_iff_fields_eq, opField_packFields, f1Field_packFields, f2Field_packFields, f3Field_packFields,
    f4Field_packFields, rsvField_packFields]
  simp only [opField, f1Field, f2Field, f3Field, f4Field, rsvField, BitVec.extractLsb'_and]

theorem byte_and_ones (x : Byte) : x &&& 0xFF#8 = x := BitVec.and_allOnes

theorem rsv_and_ones (x : BitVec 24) : x &&& 0xFFFFFF#24 = x := BitVec.and_allOnes

/-- INIT's mask keeps OP and RSV. -/
theorem and_initMask_eq_iff (w : Word64) (op : Byte) :
    w &&& 0xFFFFFF00000000FF = packFields op 0 0 0 0 ↔ opField w = op ∧ rsvField w = 0 := by
  rw [and_eq_packFields_iff]
  simp [opField, f1Field, f2Field, f3Field, f4Field, rsvField, byte_and_ones, rsv_and_ones]

/-- The mask of UPDATE and DIGEST keeps every field but F1. -/
theorem and_f1Mask_eq_iff (w : Word64) (op : Byte) :
    w &&& 0xFFFFFFFFFFFF00FF = packFields op 0 0 0 0 ↔ opField w = op ∧ tailClear w = true ∧ rsvField w = 0 := by
  rw [and_eq_packFields_iff, tailClear_iff]
  simp [opField, f1Field, f2Field, f3Field, f4Field, rsvField, byte_and_ones, rsv_and_ones, and_assoc]

/-- A command without operands is read from its own word alone: its mask keeps every bit. -/
theorem decode_eq_bare_iff (w : Word64) {i : Instr} (hi : i.isBare = true) :
    decode w = .ok i ↔ w &&& 0xFFFFFFFFFFFFFFFF = packFields i.opcode 0 0 0 0 := by
  have hmask : w &&& 0xFFFFFFFFFFFFFFFF = w := BitVec.and_allOnes
  rw [decode_eq_ok_iff, encode_of_isBare hi, hmask, eq_comm (a := w), and_iff_right (wellFormed_of_isBare hi)]

theorem exists_decode_init_iff (w : Word64) :
    (∃ a b c d, decode w = .ok (.init a b c d)) ↔ opField w = 1 ∧ rsvField w = 0 := by
  simp [decode_eq_ok_iff, Instr.wellFormed, encode, packFields_eq_iff]

theorem exists_decode_update_iff (w : Word64) :
    (∃ n, decode w = .ok (.update n)) ↔
      (opField w = 2 ∧ tailClear w = true ∧ rsvField w = 0) ∧ (f1Field w).toNat ≤ 8 := by
  rw [and_comm]
  simp [decode_eq_ok_iff, Instr.wellFormed, encode, packFields_eq_iff, tailClear_iff, and_assoc]

theorem exists_decode_digest_iff (w : Word64) :
    (∃ o, decode w = .ok (.digest o)) ↔ opField w = 3 ∧ tailClear w = true ∧ rsvField w = 0 := by
  simp [decode_eq_ok_iff, Instr.wellFormed, encode, packFields_eq_iff, tailClear_iff, and_assoc]

/-- Settles O4: each mask keeps the fields that the row's command fixes. -/
theorem decodeFollowsMatchMaskTable : Obligations.DecodeFollowsMatchMaskTable := by
  unfold Obligations.DecodeFollowsMatchMaskTable
  intro w
  exact ⟨(exists_decode_init_iff w).trans (and_initMask_eq_iff w 1).symm,
    (exists_decode_update_iff w).trans (and_congr_left' (and_f1Mask_eq_iff w 2).symm),
    (exists_decode_digest_iff w).trans (and_f1Mask_eq_iff w 3).symm,
    decode_eq_bare_iff w (i := .reset) rfl, decode_eq_bare_iff w (i := .clearKey) rfl,
    decode_eq_bare_iff w (i := .clearSalt) rfl, decode_eq_bare_iff w (i := .ackErr) rfl⟩

/-! The illegal words. -/

/-- The disjuncts of R95, by field. -/
theorem exists_decode_error_iff (w : Word64) :
    (∃ e, decode w = .error e) ↔
      rsvField w ≠ 0 ∨ (opField w).toNat = 0 ∨ 8 ≤ (opField w).toNat ∨
      ((opField w = 2 ∨ opField w = 3) ∧ ¬ tailClear w = true) ∨
      (4 ≤ (opField w).toNat ∧ (opField w).toNat ≤ 7 ∧ ¬ operandsClear w = true) ∨
      (opField w = 2 ∧ 8 < (f1Field w).toNat) := by
  by_cases hr : rsvField w = 0
  case neg => exact iff_of_true ⟨_, decode_of_rsv hr⟩ (.inl hr)
  rcases opcode_cases (opField w) with hop | hop | hop | ⟨i, hi, hop⟩ | hop
  · simp [decode_of_init hr hop, hr, hop]
  · rw [decode_of_update hr hop]
    by_cases htail : tailClear w = true
    case neg => simp [hop, htail]
    rcases Nat.lt_or_ge 8 (f1Field w).toNat with hn | hn
    · simp [hop, htail, hn, hn.not_ge]
    · simp [hr, hop, htail, hn, hn.not_gt]
  · rw [decode_of_digest hr hop]
    by_cases htail : tailClear w = true <;> simp [hr, hop, htail]
  · rw [decode_of_bare hr hi hop, bareCommand, hop]
    obtain ⟨hlo, hhi⟩ := opcode_of_isBare hi
    by_cases hclear : operandsClear w = true
    · have hne2 : i.opcode ≠ 2#8 := by bv_omega
      have hne3 : i.opcode ≠ 3#8 := by bv_omega
      have hne0 : i.opcode.toNat ≠ 0 := by omega
      simp [hclear, hr, hne2, hne3, hne0, Nat.lt_succ_of_le hhi]
    · simp [hclear, hlo, hhi]
  · rw [decode_of_unknown hr hop]
    rcases hop with hop | hop <;> simp [hop]

theorem runCommand_of_decode_error {w : Word64} {e : DecodeError} (s : Machine.State) (h : decode w = .error e) :
    Machine.runCommand w s = .next (s.raiseError .illegalCommand) := by
  unfold Machine.runCommand
  rw [h]

/-- Settles O5: the fields of R95 as bits of the word, and the one thing `runCommand` does with an illegal word. -/
theorem illegalWordOnlyRaises : Obligations.IllegalWordOnlyRaises := by
  unfold Obligations.IllegalWordOnlyRaises
  refine ⟨rfl, fun w s => ⟨?_, fun ⟨_, he⟩ => runCommand_of_decode_error s he⟩⟩
  rw [exists_decode_error_iff, tailClear_iff_bits, operandsClear_iff_bits]
  exact Iff.rfl

/-! Known words. -/

/-- Settles O1: twelve fixed words, each evaluated. -/
theorem knownWordsDecode : Obligations.KnownWordsDecode := by
  unfold Obligations.KnownWordsDecode
  decide

end Sys2Proof
end

section
/-! SUPPORT and the settled obligations of 40_initialization.md: the parameter block (R121, R122), the state an INIT with
operands it accepts leaves (R120, R123 to R128), and what a rejected INIT does (R120, 60_exceptions.md R252). -/

namespace Sys2Proof.Machine

/-! The parameter block. -/

/-- Settles O18: each range of byte indices is one branch of the block's layout. -/
theorem parameterBlockLayout : Obligations.ParameterBlockLayout := by
  unfold Obligations.ParameterBlockLayout
  intro s ho hk
  have hlen (n : Nat) (hn : n ≤ 64) : (BitVec.ofNat 8 n).toNat = n := Nat.mod_eq_of_lt (by omega)
  refine ⟨⟨?_, ?_, ?_, ?_⟩, fun i h4 h31 => ?_, fun i => ?_, fun i => ?_⟩
  · simp [getElem_paramBlock, hlen _ ho]
  · simp [getElem_paramBlock, hlen _ hk]
  · simp [getElem_paramBlock]
  · simp [getElem_paramBlock]
  · rw [Fin.getElem_fin, getElem_paramBlock, if_neg (by omega), if_neg (by omega), if_neg (by omega), if_pos (by omega)]
  · rw [getElem_paramBlock, if_neg (by omega), if_neg (by omega), if_neg (by omega), if_neg (by omega), dif_pos (by omega)]
    simp
  · rw [getElem_paramBlock, if_neg (by omega), if_neg (by omega), if_neg (by omega), if_neg (by omega), dif_neg (by omega)]
    simp

/-- Settles O19: the words of the parameter block, with those of salt and personalization read as `LE64`. -/
theorem parameterBlockWords : Obligations.ParameterBlockWords := by
  unfold Obligations.ParameterBlockWords
  intro s ho hk
  rw [paramWords_eq s (by omega) (by omega)]
  simp only [getElem_toWords]
  rfl

/-! What INIT takes from the staging registers. -/

theorem toBytes_zero (m : Nat) : toBytes (Vector.replicate m 0) = zeros (8 * m) := by
  ext i hi : 1
  rw [getElem_toBytes, Vector.getElem_replicate, getElem_zeros]
  simp [byteLane]

theorem getElem_keyStage (s : State) (i : Nat) (h : i < 64) : s.keyStage[i] = byteLane (s.keyIn[i / 8]) (i % 8) :=
  getElem_toBytes s.keyIn i h

theorem keepFirst_zero {m : Nat} (B : Vector Byte m) : keepFirst 0 B = zeros m := by
  ext i hi : 1
  rw [getElem_keepFirst, if_neg (Nat.not_lt_zero i), getElem_zeros]

/-- A byte of a salt or personalization that INIT takes from staging, or of its absence (R68, R127). -/
theorem getElem_ite_toBytes {m : Nat} (p : Prop) [Decidable p] (ws : Vector Word64 m) (i : Nat) (h : i < 8 * m) :
    (if p then toBytes ws else zeros (8 * m))[i] = if p then byteLane (ws[i / 8]) (i % 8) else 0 := by
  split
  · exact getElem_toBytes ws i h
  · exact getElem_zeros _ i h

namespace State

/-- A staged salt of zeros and an absent one configure the engine alike (R127). -/
theorem configure_saltLen_of_zero (s : State) (outLen keyLen persLen : Byte) (h : s.saltIn = Vector.replicate 2 0) :
    s.configure outLen keyLen 16 persLen = s.configure outLen keyLen 0 persLen := by
  have hstage : s.saltStage = zeros 16 := (congrArg toBytes h).trans (toBytes_zero 2)
  simp [configure, hstage]

/-- A staged personalization of zeros and an absent one configure the engine alike (R127). -/
theorem configure_persLen_of_zero (s : State) (outLen keyLen saltLen : Byte) (h : s.persIn = Vector.replicate 2 0) :
    s.configure outLen keyLen saltLen 16 = s.configure outLen keyLen saltLen 0 := by
  have hstage : s.persStage = zeros 16 := (congrArg toBytes h).trans (toBytes_zero 2)
  simp [configure, hstage]

/-! What Initialize makes of the chaining state and leaves of the error bit and the staging registers. -/

@[simp] theorem runInitialize_h (s : State) : s.runInitialize.h = s.startStream.h := by rw [runInitialize_eq, startStream_h]
@[simp] theorem runInitialize_errSticky (s : State) : s.runInitialize.errSticky = s.errSticky := by rw [runInitialize_eq]
@[simp] theorem runInitialize_keyIn (s : State) : s.runInitialize.keyIn = s.keyIn := by rw [runInitialize_eq]
@[simp] theorem runInitialize_saltIn (s : State) : s.runInitialize.saltIn = s.saltIn := by rw [runInitialize_eq]
@[simp] theorem runInitialize_persIn (s : State) : s.runInitialize.persIn = s.persIn := by rw [runInitialize_eq]

/-! The stream after INIT's writes and Initialize. -/

section
variable (s : State) (outLen keyLen saltLen persLen : Byte)

/-- The chaining state INIT leaves (R123), from the staged salt and personalization. -/
theorem configure_runInitialize_h : (s.configure outLen keyLen saltLen persLen).runInitialize.h =
    startChain outLen.toNat keyLen.toNat
      (if saltLen = 16 then s.saltIn else Vector.replicate 2 0)
      (if persLen = 16 then s.persIn else Vector.replicate 2 0) := by
  rw [runInitialize_h, startStream_h_eq_startChain _ outLen.isLt keyLen.isLt, configure_salt, configure_personalization]
  exact congrArg₂ (startChain outLen.toNat keyLen.toNat) (toWords_ite_toBytes _ s.saltIn) (toWords_ite_toBytes _ s.persIn)

/-- INIT leaves the key block in the buffer; with KEYLEN 0 the key is zero and so is the empty buffer (R124, R125). -/
theorem configure_runInitialize_buffer : (s.configure outLen keyLen saltLen persLen).runInitialize.buffer =
    keyBlock (keepFirst keyLen.toNat s.keyStage) := by
  rw [runInitialize_buffer, configure_keyLength, configure_key]
  split
  · rfl
  next h => rw [Nat.eq_zero_of_not_pos h, keepFirst_zero, keyBlock_zeros]

/-- The buffer INIT leaves is full exactly when there is a key (R124, R125). -/
theorem configure_runInitialize_bufferLength :
    (s.configure outLen keyLen saltLen persLen).runInitialize.bufferLength = if keyLen = 0 then 0 else 128 := by
  rw [runInitialize_bufferLength, configure_keyLength]
  by_cases h : keyLen = 0
  · rw [if_pos h, if_neg (by simp [h])]
  · rw [if_neg h, if_pos (by bv_omega)]

end

end State

/-! INIT. -/

/-- Settles O20: the state after INIT's writes and Initialize, field by field. -/
theorem initSucceeds : Obligations.InitSucceeds := by
  unfold Obligations.InitSucceeds
  intro s outLen keyLen saltLen persLen ho1 ho64 hk hsl hpl
  have hacc := (initAccepts_iff outLen keyLen saltLen persLen).mpr ⟨ho1, ho64, hk, hsl, hpl⟩
  refine ⟨_, exec_init_accepted _ _ _ _ s hacc, fun i => ?key, fun i => ?salt, fun i => ?pers, by simp, by simp, by simp,
    by simp, by simp, by simp, by simp, ?chain, by simp,
    ?length, fun i => ?buffer, by simp, by simp, by simp, by simp, by simp, by simp⟩
  case key =>
    simp only [State.succeed_key, State.runInitialize_key, State.configure_key, Fin.getElem_fin, getElem_keepFirst,
      getElem_keyStage]
    rfl
  case salt =>
    simp only [State.succeed_salt, State.runInitialize_salt, State.configure_salt]
    exact getElem_ite_toBytes _ s.saltIn i i.isLt
  case pers =>
    simp only [State.succeed_personalization, State.runInitialize_personalization, State.configure_personalization]
    exact getElem_ite_toBytes _ s.persIn i i.isLt
  case chain => rw [State.succeed_h, State.configure_runInitialize_h]
  case length => rw [State.succeed_bufferLength, State.configure_runInitialize_bufferLength]
  case buffer =>
    simp only [State.succeed_buffer, State.configure_runInitialize_buffer, State.succeed_key, State.runInitialize_key,
      State.configure_key]
    exact getElem_keyBlock _ i i.isLt

/-- Settles O21: an operand out of range is one INIT does not accept. -/
theorem initRejectsParameters : Obligations.InitRejectsParameters := by
  unfold Obligations.InitRejectsParameters
  intro s outLen keyLen saltLen persLen hbad
  refine exec_init_rejected _ _ _ _ s fun hacc => ?_
  obtain ⟨ho1, ho64, hk, hsl, hpl⟩ := (initAccepts_iff _ _ _ _).mp hacc
  obtain h | h | h | ⟨h0, h16⟩ | ⟨h0, h16⟩ := hbad
  · omega
  · omega
  · omega
  · exact hsl.elim h0 h16
  · exact hpl.elim h0 h16

/-- Settles O23: an absent salt is stored as zeros, and INIT's writes do not tell it from a staged salt of zeros; so for the
personalization. -/
theorem absentSaltIsZeroSalt : Obligations.AbsentSaltIsZeroSalt := by
  unfold Obligations.AbsentSaltIsZeroSalt
  intro s outLen keyLen saltLen persLen ho1 ho64 hk hsl hpl
  have hrun (c d : Byte) (hc : c = 0 ∨ c = 16) (hd : d = 0 ∨ d = 16) :
      exec (.init outLen keyLen c d) s = .next (s.configure outLen keyLen c d).runInitialize.succeed :=
    exec_init_accepted _ _ _ _ s ((initAccepts_iff _ _ _ _).mpr ⟨ho1, ho64, hk, hc, hd⟩)
  refine ⟨⟨_, hrun 0 persLen (.inl rfl) hpl, by simp⟩, ⟨_, hrun saltLen 0 hsl (.inl rfl), by simp⟩,
    fun h => ?_, fun h => ?_⟩
  · rw [hrun 16 persLen (.inr rfl) hpl, hrun 0 persLen (.inl rfl) hpl, s.configure_saltLen_of_zero _ _ _ h]
  · rw [hrun saltLen 16 hsl (.inr rfl), hrun saltLen 0 hsl (.inl rfl), s.configure_persLen_of_zero _ _ _ h]

/-- INIT with an accepted OUTLEN and nothing else: the chaining state differs from IV in its first word only (R123, R128). -/
theorem exec_init_outLen (s : State) (outLen : Byte) (ho1 : 1 ≤ outLen.toNat) (ho64 : outLen.toNat ≤ 64) :
    ∃ t, exec (.init outLen 0 0 0) s = .next t ∧
      t.h = startChain outLen.toNat 0 (Vector.replicate 2 0) (Vector.replicate 2 0) := by
  have hacc : initAccepts outLen 0 0 0 = true := (initAccepts_iff _ _ _ _).mpr ⟨ho1, ho64, by decide, .inl rfl, .inl rfl⟩
  refine ⟨_, exec_init_accepted _ _ _ _ s hacc, ?_⟩
  rw [State.succeed_h, State.configure_runInitialize_h]
  rfl

/-- Settles O22: the start of the chain for each of the four output lengths, evaluated. -/
theorem namedConfigurations : Obligations.NamedConfigurations := by
  unfold Obligations.NamedConfigurations
  intro s outLen h0 h
  obtain ⟨hout, hchain⟩ : (1 ≤ outLen.toNat ∧ outLen.toNat ≤ 64) ∧
      startChain outLen.toNat 0 (Vector.replicate 2 0) (Vector.replicate 2 0) =
        #v[h0, iv[1], iv[2], iv[3], iv[4], iv[5], iv[6], iv[7]] := by
    obtain h | h | h | h := h <;> obtain ⟨rfl, rfl⟩ := Prod.mk.inj h <;> decide
  rw [← hchain]
  exact exec_init_outLen s outLen hout.1 hout.2

end Sys2Proof.Machine
end

section
/-! SUPPORT and the settled obligations on UPDATE, Absorb and the counter (41_update.md R150 to R155). -/

namespace Sys2Proof.Machine

/-- Settles O27: each clause is a case of UPDATE's meaning. -/
theorem updateErrors : Obligations.UpdateErrors := by
  unfold Obligations.UpdateErrors
  exact fun s count => ⟨exec_update_illegal count s, exec_update_invalid count s⟩

theorem toNat_tLow (t : Word128) : (tLow t).toNat = t.toNat % 2 ^ 64 := by simp [tLow]

theorem toNat_tHigh (t : Word128) : (tHigh t).toNat = t.toNat / 2 ^ 64 := by
  rw [tHigh, BitVec.extractLsb'_toNat, Nat.shiftRight_eq_div_pow, Nat.mod_eq_of_lt]
  have := t.isLt
  omega

theorem toNat_add128 (t : Word128) (n : Nat) : (add128 t n).toNat = (t.toNat + n) % 2 ^ 128 := by
  rw [add128, BitVec.toNat_add, BitVec.toNat_ofNat, Nat.add_mod_mod]

/-- Settles O31: the halves are remainder and quotient of the counter by 2^64, so the carry is that of their sum. -/
theorem counterAdditionCarries : Obligations.CounterAdditionCarries := by
  unfold Obligations.CounterAdditionCarries
  intro t n hn
  have ht := t.isLt
  constructor
  · apply BitVec.eq_of_toNat_eq
    rw [toNat_tLow, toNat_add128, BitVec.toNat_ofNat, toNat_tLow]
    omega
  · apply BitVec.eq_of_toNat_eq
    rw [toNat_tHigh, toNat_add128, BitVec.toNat_ofNat, toNat_tHigh, toNat_tLow]
    split <;> omega

namespace State

/-- The counter a stream from 0 reaches: one block for each full buffer that a byte has followed (R154, R155). -/
theorem absorb_t_eq_blockCount (s : State) (bs : List Byte) (hb : s.bufferLength ≤ 128) (ht : s.t = 0) :
    (s.absorb bs).t = BitVec.ofNat 128 (128 * (blockCount (s.bufferLength + bs.length) - 1)) := by
  rcases Nat.eq_zero_or_pos (s.bufferLength + bs.length) with hzero | hsome
  · obtain rfl := List.eq_nil_of_length_eq_zero (Nat.eq_zero_of_add_eq_zero_left hzero)
    rw [hzero, absorb_nil, ht]
    rfl
  · have hpos := s.absorb_bufferLength_pos bs
      ((Nat.add_pos_iff_pos_or_pos.mp hsome).imp_right List.ne_nil_of_length_pos)
    have hle := s.absorb_bufferLength_le bs hb
    have hblocks := s.absorb_t_mod bs (by rw [ht]; rfl)
    have htotal := congrArg BitVec.toNat (s.absorb_total bs hb)
    simp only [ht, BitVec.ofNat_eq_ofNat, BitVec.zero_add, BitVec.toNat_add, BitVec.toNat_ofNat] at htotal
    apply BitVec.eq_of_toNat_eq
    rw [BitVec.toNat_ofNat, blockCount]
    omega

end State

/-- Settles O30: the empty and the full buffer are the two cases of one count. -/
theorem compressionCount : Obligations.CompressionCount := by
  unfold Obligations.CompressionCount
  intro s bytes ht
  constructor
  · intro hempty
    rw [s.absorb_t_eq_blockCount bytes (by omega) ht, hempty, Nat.zero_add, blockCount]
  · intro hfull
    rw [s.absorb_t_eq_blockCount bytes hfull.le ht, hfull, blockCount]
    congr 2
    omega

/-- Settles O28: a split leaves what one Absorb leaves, and Absorb keeps everything outside the stream. -/
theorem chunkingIndependence : Obligations.ChunkingIndependence := by
  unfold Obligations.ChunkingIndependence
  intro s chunks rest hcfg hfin hc hp
  obtain ⟨d, e, hrun⟩ := run_absorbChunks s chunks rest hcfg hfin hc hp
  exact ⟨_, hrun, by simp [hcfg, hfin]⟩

/-- UPDATE in an open stream changes the four fields of the stream and clears the error code (R152). -/
theorem exec_update_eq (n : Byte) (s : State) (hn : n.toNat ≤ 8) (hcfg : s.configured = true)
    (hfin : s.finalized = false) : exec (.update n) s = .next { s with
      h := (s.absorb (s.dinBytes n.toNat)).h
      t := (s.absorb (s.dinBytes n.toNat)).t
      buffer := (s.absorb (s.dinBytes n.toNat)).buffer
      bufferLength := (s.absorb (s.dinBytes n.toNat)).bufferLength
      lastErr := .ok } := by
  rw [exec_update_open n s hn hcfg hfin]
  congr 1
  apply State.ext <;> simp

/-- Settles O25: bytes that fit only join the buffer. -/
theorem updateWithinBlock : Obligations.UpdateWithinBlock := by
  unfold Obligations.UpdateWithinBlock
  intro s count hcfg hfin hcount hroom
  obtain ⟨hh, ht, hlen, hbuf⟩ := s.absorb_fits (s.dinBytes count.toNat) (by rwa [State.dinBytes_length])
  rw [State.dinBytes_length] at hlen hbuf
  refine ⟨(s.absorb (s.dinBytes count.toNat)).buffer, ?_, fun i => ?_⟩
  · rw [exec_update_eq count s hcount hcfg hfin, hh, ht, hlen]
  · rw [hbuf i]
    split
    · next hi => exact State.dinBytes_getD s _ _ (by omega)
    · rfl

namespace State

/-- Bytes that overfill the buffer, but not two blocks: the first of them complete the block, which is compressed because more
follow, and the others start a zeroed buffer (R150). -/
theorem absorb_overfills (s : State) (bs : List Byte) (hb : s.bufferLength ≤ 128)
    (hover : 128 < s.bufferLength + bs.length) (hone : s.bufferLength + bs.length ≤ 256) :
    ∃ full : Vector Byte 128,
      (∀ i : Fin 128, full[i] = if i.val < s.bufferLength then s.buffer[i] else bs.getD (i.val - s.bufferLength) 0) ∧
      (s.absorb bs).h = compress s.h full (add128 s.t 128) false ∧ (s.absorb bs).t = add128 s.t 128 ∧
      (s.absorb bs).bufferLength = s.bufferLength + bs.length - 128 ∧
      ∀ i : Fin 128, (s.absorb bs).buffer[i] =
        if i.val < s.bufferLength + bs.length - 128 then bs.getD (i.val + 128 - s.bufferLength) 0 else 0 := by
  obtain ⟨head, tail, rfl, hhead⟩ : ∃ head tail, bs = head ++ tail ∧ s.bufferLength + head.length = 128 :=
    ⟨bs.take (128 - s.bufferLength), bs.drop (128 - s.bufferLength), (List.take_append_drop _ _).symm, by
      rw [List.length_take]; omega⟩
  rw [List.length_append] at hover hone ⊢
  obtain ⟨hh, ht, hfull, hblock⟩ := s.absorb_fits head hhead.le
  obtain ⟨hh', ht', hlen', hbuf'⟩ := (s.absorb head).compressFull.absorb_fits tail
    (by rw [compressFull_bufferLength]; omega)
  have hsplit : s.absorb (head ++ tail) = (s.absorb head).compressFull.absorb tail := by
    rw [absorb_append]
    exact absorb_of_full _ _ (hfull.trans hhead) (List.ne_nil_of_length_pos (by omega))
  rw [hsplit, hh', ht', hlen', compressFull_h, compressFull_t, hh, ht]
  refine ⟨(s.absorb head).buffer, fun i => ?_, rfl, rfl, by rw [compressFull_bufferLength]; omega, fun i => ?_⟩
  · rw [hblock i]
    by_cases hi : i.val < s.bufferLength
    · rw [if_neg (by omega), if_pos hi]
    · rw [if_pos (by omega), if_neg hi, List.getD_append _ _ _ _ (by omega)]
  · rw [hbuf' i, compressFull_bufferLength, compressFull_buffer]
    by_cases hi : i.val < tail.length
    · rw [if_pos (by omega), if_pos (by omega), List.getD_append_right _ _ _ _ (by omega)]
      congr 1
      omega
    · rw [if_neg (by omega), if_neg (by omega)]
      exact getElem_zeros 128 i.val i.isLt

end State

/-- Settles O26: UPDATE's at most 8 bytes overfill the buffer by less than a block. -/
theorem updateAcrossBlock : Obligations.UpdateAcrossBlock := by
  unfold Obligations.UpdateAcrossBlock
  intro s count hcfg hfin hcount hb hover
  obtain ⟨full, hblock, hh, ht, hlen, hbuf⟩ := s.absorb_overfills (s.dinBytes count.toNat) hb
    (by rwa [State.dinBytes_length]) (by rw [State.dinBytes_length]; omega)
  rw [State.dinBytes_length] at hlen hbuf
  refine ⟨full, (s.absorb (s.dinBytes count.toNat)).buffer, ?_, fun i => ?_, fun i => ?_⟩
  · rw [exec_update_eq count s hcount hcfg hfin, hh, ht, hlen]
    rfl
  · rw [hblock i]
    split
    · rfl
    · exact State.dinBytes_getD s _ _ (by omega)
  · rw [hbuf i]
    split
    · exact State.dinBytes_getD s _ _ (by omega)
    · rfl

end Sys2Proof.Machine
end

section
/-! SUPPORT and the settled obligations of 42_compression.md: the mixer G word by word and on disjoint words (R175, R176), the
sigma rows (R172), and the working vector before round 0 (R174). -/

namespace Sys2Proof.Machine

/-- Settles O32: a mixer is two halves, and what each half writes is known. -/
theorem mixerUpdatesFourWords : Obligations.MixerUpdatesFourWords := by
  unfold Obligations.MixerUpdatesFourWords
  intro a b c d x y v hab hac had hbc hbd hcd
  obtain ⟨ha1, hd1, hc1, hb1, hframe1⟩ := mixHalf_spec a b c d x 32 24 v hab hac had hbc hbd hcd
  obtain ⟨ha2, hd2, hc2, hb2, hframe2⟩ := mixHalf_spec a b c d y 16 63 (mixHalf a b c d x 32 24 v) hab hac had hbc hbd hcd
  simp only [ha1, hb1, hc1, hd1, rotr64_eq_rotateRight, Nat.reduceLT] at ha2 hb2 hc2 hd2
  exact ⟨_, _, _, _, _, _, _, _, rfl, rfl, rfl, rfl, rfl, rfl, rfl, rfl, ha2, hb2, hc2, hd2,
    fun i ia ib ic id => (hframe2 i ia ib ic id).trans (hframe1 i ia ib ic id)⟩

/-! Calls of G on disjoint words. -/

/-- Half a mixer keeps every word it is not called on (R175). -/
theorem mixHalf_getElem_of_notMem (a b c d : Fin 16) (x : Word64) (r1 r2 : Nat) (v : Vector Word64 16)
    (hn : [a, b, c, d].Nodup) (i : Fin 16) (hi : i ∉ [a, b, c, d]) : (mixHalf a b c d x r1 r2 v)[i] = v[i] := by
  simp only [List.nodup_cons, List.mem_cons, List.not_mem_nil, not_or, or_false] at hn hi
  obtain ⟨⟨hab, hac, had⟩, ⟨hbc, hbd⟩, hcd, -⟩ := hn
  obtain ⟨ia, ib, ic, id⟩ := hi
  obtain ⟨-, -, -, -, hframe⟩ := mixHalf_spec a b c d x r1 r2 v hab hac had hbc hbd hcd
  exact hframe i ia ib ic id

/-- The words half a mixer writes depend on the words it is called on, and on no other word of the vector (R175). -/
theorem mixHalf_getElem_congr (a b c d : Fin 16) (x : Word64) (r1 r2 : Nat) (u v : Vector Word64 16)
    (hn : [a, b, c, d].Nodup) (huv : ∀ i ∈ [a, b, c, d], u[i] = v[i]) (i : Fin 16) (hi : i ∈ [a, b, c, d]) :
    (mixHalf a b c d x r1 r2 u)[i] = (mixHalf a b c d x r1 r2 v)[i] := by
  simp only [List.nodup_cons, List.mem_cons, List.not_mem_nil, not_or, or_false] at hn hi
  obtain ⟨⟨hab, hac, had⟩, ⟨hbc, hbd⟩, hcd, -⟩ := hn
  obtain ⟨ha, hb, hc, hd, -⟩ := by simpa only [List.forall_mem_cons] using huv
  obtain ⟨hua, hud, huc, hub, -⟩ := mixHalf_spec a b c d x r1 r2 u hab hac had hbc hbd hcd
  obtain ⟨hva, hvd, hvc, hvb, -⟩ := mixHalf_spec a b c d x r1 r2 v hab hac had hbc hbd hcd
  simp only [ha, hb, hc, hd] at hua hub huc hud
  obtain rfl | rfl | rfl | rfl := hi
  · exact hua.trans hva.symm
  · exact hub.trans hvb.symm
  · exact huc.trans hvc.symm
  · exact hud.trans hvd.symm

theorem mixG_getElem_of_notMem (a b c d : Fin 16) (x y : Word64) (v : Vector Word64 16) (hn : [a, b, c, d].Nodup)
    (i : Fin 16) (hi : i ∉ [a, b, c, d]) : (mixG a b c d x y v)[i] = v[i] :=
  (mixHalf_getElem_of_notMem a b c d y 16 63 _ hn i hi).trans (mixHalf_getElem_of_notMem a b c d x 32 24 v hn i hi)

theorem mixG_getElem_congr (a b c d : Fin 16) (x y : Word64) (u v : Vector Word64 16) (hn : [a, b, c, d].Nodup)
    (huv : ∀ i ∈ [a, b, c, d], u[i] = v[i]) : ∀ i ∈ [a, b, c, d], (mixG a b c d x y u)[i] = (mixG a b c d x y v)[i] :=
  mixHalf_getElem_congr a b c d y 16 63 _ _ hn (mixHalf_getElem_congr a b c d x 32 24 u v hn huv)

/-- On the words of one of two disjoint mixers, the other changes nothing, before or after it. -/
theorem mixG_mixG_getElem_comm (a b c d e f g h : Fin 16) (x y z w : Word64) (v : Vector Word64 16)
    (hn : [a, b, c, d].Nodup) (hn' : [e, f, g, h].Nodup) (hdisj : [a, b, c, d].Disjoint [e, f, g, h])
    (i : Fin 16) (hi : i ∈ [a, b, c, d]) :
    (mixG a b c d x y (mixG e f g h z w v))[i] = (mixG e f g h z w (mixG a b c d x y v))[i] := by
  calc (mixG a b c d x y (mixG e f g h z w v))[i]
      = (mixG a b c d x y v)[i] :=
        mixG_getElem_congr a b c d x y _ v hn (fun j hj => mixG_getElem_of_notMem e f g h z w v hn' j (hdisj hj)) i hi
    _ = (mixG e f g h z w (mixG a b c d x y v))[i] :=
        (mixG_getElem_of_notMem e f g h z w _ hn' i (hdisj hi)).symm

/-- Settles O33: a word belongs to one of the two mixers, where the other changes nothing, or to neither. -/
theorem disjointMixersCommute : Obligations.DisjointMixersCommute := by
  unfold Obligations.DisjointMixersCommute
  intro a b c d e f g h x y z w v hnodup
  obtain ⟨hn, hn', hdisj⟩ := List.nodup_append'.mp (show ([a, b, c, d] ++ [e, f, g, h]).Nodup from hnodup)
  suffices hword : ∀ i : Fin 16,
      (mixG a b c d x y (mixG e f g h z w v))[i] = (mixG e f g h z w (mixG a b c d x y v))[i] from
    Vector.ext fun n hlt => hword ⟨n, hlt⟩
  intro i
  by_cases hi : i ∈ [a, b, c, d]
  · exact mixG_mixG_getElem_comm a b c d e f g h x y z w v hn hn' hdisj i hi
  by_cases hi' : i ∈ [e, f, g, h]
  · exact (mixG_mixG_getElem_comm e f g h a b c d z w x y v hn' hn hdisj.symm i hi').symm
  · rw [mixG_getElem_of_notMem a b c d x y _ hn i hi, mixG_getElem_of_notMem e f g h z w v hn' i hi',
      mixG_getElem_of_notMem e f g h z w _ hn' i hi', mixG_getElem_of_notMem a b c d x y v hn i hi]

/-! The sigma rows and the working vector. -/

/-- No index stands twice in a row of SIGMA (R172). -/
theorem sigma_row_injective (r : Fin 12) : Function.Injective fun j : Fin 16 => sigma[r][j] := by
  revert r
  unfold Function.Injective
  decide

/-- Settles O34: a row without repetition takes each of the sixteen values once. -/
theorem sigmaRowsArePermutations : Obligations.SigmaRowsArePermutations := by
  unfold Obligations.SigmaRowsArePermutations
  exact ⟨fun r => (Finite.injective_iff_bijective.mp (sigma_row_injective r)).existsUnique, rfl, rfl⟩

/-- R174 word by word: `h` and then IV, each with its tweak, which is zero for all words but 12, 13 and 14. -/
theorem getElem_workVector (h : Vector Word64 8) (t : Word128) (last : Bool) (i : Nat) (hi : i < 16) :
    (workVector h t last)[i] = (if h8 : i < 8 then h[i] else iv[i - 8]) ^^^
      if i = 12 then tLow t else if i = 13 then tHigh t else if i = 14 ∧ last = true then BitVec.allOnes 64 else 0 := by
  have happend : (h ++ iv : Vector Word64 16)[i] = if h8 : i < 8 then h[i] else iv[i - 8] := Vector.getElem_append hi
  rw [← happend]
  unfold workVector
  obtain rfl | rfl | rfl | ⟨h12, h13, h14⟩ : i = 12 ∨ i = 13 ∨ i = 14 ∨ 12 ≠ i ∧ 13 ≠ i ∧ 14 ≠ i := by omega
  · cases last <;> simp
  · cases last <;> simp
  · cases last <;> simp
  · cases last <;> simp [h12, h13, h14, h12.symm, h13.symm, h14.symm]

/-- The counter and the last-block flag touch no word below 12. -/
theorem getElem_workVector_of_lt (h : Vector Word64 8) (t : Word128) (last : Bool) (i : Nat) (hi : i < 12) :
    (workVector h t last)[i] = if h8 : i < 8 then h[i] else iv[i - 8] := by
  rw [getElem_workVector, if_neg (by omega), if_neg (by omega), if_neg (by omega)]
  exact BitVec.xor_zero

/-- Settles O35: the words below 12 have no tweak, and of those from 12 on each has its own. -/
theorem workingVectorSetup : Obligations.WorkingVectorSetup := by
  unfold Obligations.WorkingVectorSetup
  intro h t last
  have hword := getElem_workVector h t last
  refine ⟨fun i => ?_, fun i => ?_, hword 12 (by decide), hword 13 (by decide), ?_, ?_⟩
  · rw [getElem_workVector_of_lt h t last i (by omega), dif_pos i.isLt]
    rfl
  · rw [getElem_workVector_of_lt h t last (8 + i) (by omega), dif_neg (by omega)]
    simp
  · cases last with
    | false => exact (hword 14 (by decide)).trans BitVec.xor_zero
    | true => exact (hword 14 (by decide)).trans BitVec.xor_allOnes
  · exact (hword 15 (by decide)).trans BitVec.xor_zero

end Sys2Proof.Machine
end

section
/-! SUPPORT and the settled obligations on DIGEST and the finalized engine (43_finalization.md R200 to R207). -/

namespace Sys2Proof.Machine

/-! DIGEST. -/

/-- Settles O37: each clause is a case of DIGEST's meaning. -/
theorem digestErrors : Obligations.DigestErrors := by
  unfold Obligations.DigestErrors
  exact fun s offset => ⟨exec_digest_invalid offset s, exec_digest_small offset s⟩

/-- A DIGEST that fits, on an open stream, changes the final compression's two fields and OUT, and closes and empties the
stream (R200 to R204). -/
theorem exec_digest_eq (offset : Byte) (s : State) (hcfg : s.configured = true) (hfin : s.finalized = false)
    (hfit : offset.toNat + s.outputLength ≤ 64) : exec (.digest offset) s = .next { s with
      h := s.compressFinal.h
      t := s.compressFinal.t
      out := spliceOut offset.toNat s.outputLength (toBytes s.compressFinal.h) s.out
      finalized := true
      buffer := zeros 128
      bufferLength := 0
      lastErr := .ok } :=
  exec_digest_fits offset s hcfg hfin hfit

/-- Settles O36: the compressed block is the buffer cut off at its length, and OUT is the splice of the digest's bytes. -/
theorem digestSucceeds : Obligations.DigestSucceeds := by
  unfold Obligations.DigestSucceeds
  intro s offset hcfg hfin hfit
  refine ⟨keepFirst s.bufferLength s.buffer, s.compressFinal.h, _, exec_digest_eq offset s hcfg hfin hfit,
    fun i => getElem_keepFirst _ _ i i.isLt, rfl, fun k => ?_⟩
  rw [getElem_spliceOut]
  split
  · exact getElem_toBytes _ _ _
  · rfl

/-- Settles O38: the invariant keeps the buffer zero from its length on, so the padded block is the buffer. -/
theorem paddingWritesZerosOverZeros : Obligations.PaddingWritesZerosOverZeros := by
  unfold Obligations.PaddingWritesZerosOverZeros
  intro s offset hs hcfg hfin hfit
  refine ⟨_, exec_digest_eq offset s hcfg hfin hfit, ?_⟩
  rw [State.compressFinal_h, keepFirst_of_tail_zero _ _ hs.buffer_tail]
  rfl

/-- Settles O39: equal streams have equal final chaining states, and OUT is spliced from nothing else. -/
theorem digestDependsOnlyOnStream : Obligations.DigestDependsOnlyOnStream := by
  unfold Obligations.DigestDependsOnlyOnStream
  intro s u offset hcfg hfin hcfg' hfin' hh ht hbuf hlen hout hold hfit
  have hfinal := State.compressFinal_sameStream s u ⟨hh, ht, hbuf, hlen⟩
  refine ⟨_, _, exec_digest_eq offset s hcfg hfin hfit, exec_digest_eq offset u hcfg' hfin' (hout ▸ hfit), ?_⟩
  simp only [hfinal, hout, hold]

/-! The finalized engine. -/

/-- Until RESET or INIT a finalized engine keeps flag, chaining state, counter and OUT: UPDATE and DIGEST end in an error, and
the other commands write none of the four (R203, R204). -/
theorem exec_keeps_finalized {i : Instr} {s t : State} (hfin : s.finalized = true) (h : exec i s = .next t)
    (hreset : i ≠ .reset) (hinit : ∀ outLen keyLen saltLen persLen, i ≠ .init outLen keyLen saltLen persLen) :
    t.finalized = true ∧ t.h = s.h ∧ t.t = s.t ∧ t.out = s.out := by
  obtain ⟨e, -, rfl, -⟩ | ⟨a, b, c, d, rfl, -, rfl⟩ | ⟨n, -, -, -, hopen, -⟩ | ⟨o, -, -, hopen, -, -⟩ |
    ⟨rfl, -, -⟩ | ⟨-, -, rfl⟩ | ⟨-, -, rfl⟩ | ⟨-, rfl⟩ := exec_cases i s t h
  case inr.inl => exact absurd rfl (hinit a b c d)
  case inr.inr.inl => simp [hfin] at hopen
  case inr.inr.inr.inl => simp [hfin] at hopen
  case inr.inr.inr.inr.inl => exact absurd rfl hreset
  all_goals exact ⟨hfin, rfl, rfl, rfl⟩

/-- On a finalized engine a well-formed UPDATE or any DIGEST ends with INVALID_STATE (R204). -/
theorem exec_finalized_lastErr {i : Instr} {s t : State} (hfin : s.finalized = true) (h : exec i s = .next t)
    (hwf : i.wellFormed = true) (hstream : (∃ n, i = .update n) ∨ (∃ o, i = .digest o)) :
    t.lastErr = .invalidState := by
  obtain ⟨n, rfl⟩ | ⟨o, rfl⟩ := hstream
  · rw [exec_update_invalid n s (by simpa [Instr.wellFormed] using hwf) (.inr hfin)] at h
    cases h
    rfl
  · rw [exec_digest_invalid o s (.inr hfin)] at h
    cases h
    rfl

/-- Settles O55: what a finalized engine keeps, and the error UPDATE and DIGEST end with. -/
theorem finalizedStreamIsFrozen : Obligations.FinalizedStreamIsFrozen := by
  unfold Obligations.FinalizedStreamIsFrozen
  intro i s t hfin h hreset hinit
  obtain ⟨hflag, hh, ht, hout⟩ := exec_keeps_finalized hfin h hreset hinit
  exact ⟨hflag, hh, ht, hout, exec_finalized_lastErr hfin h⟩

end Sys2Proof.Machine
end

section
/-! SUPPORT and the settled obligations of 44_teardown_and_status.md (R220 to R226): CLEAR_KEY, CLEAR_SALT and ACK_ERR, and
the streams RESET starts from the stored configuration. -/

namespace Sys2Proof.Machine

/-! CLEAR_KEY, CLEAR_SALT and ACK_ERR. -/

/-- Settles O42: each clause is a case of CLEAR_KEY's meaning. -/
theorem clearKeyErasesKey : Obligations.ClearKeyErasesKey := by
  unfold Obligations.ClearKeyErasesKey
  exact fun s => ⟨exec_clearKey_configured s, exec_clearKey_invalid s⟩

/-- Settles O43: each clause is a case of CLEAR_SALT's meaning. -/
theorem clearSaltErasesSalt : Obligations.ClearSaltErasesSalt := by
  unfold Obligations.ClearSaltErasesSalt
  exact fun s => ⟨exec_clearSalt_configured s, exec_clearSalt_invalid s⟩

/-- Settles O44: the acknowledgement is ACK_ERR's whole meaning and has no condition. -/
theorem ackErrClearsErrors : Obligations.AckErrClearsErrors := by
  unfold Obligations.AckErrClearsErrors
  exact fun _ => rfl

/-! Pending commands on a configured engine. -/

/-- A run that starts with a pending command is the command and the run from the state it leaves (20_memory.md R72). -/
theorem run_command {n : Nat} {i : Instr} {s t : State} {rest : List Transaction} (hi : i.wellFormed = true)
    (hp : s.pending = command i :: rest) (h : exec i { s with pending := rest } = .next t) :
    core.run (n + 1) s = core.run n t :=
  run_succ_of_step n s t ((step_command s i rest hi hp).trans h)

namespace State

/-- Initialize overwrites all that RESET zeroes before it (R220). -/
theorem wipeStream_runInitialize (s : State) : s.wipeStream.runInitialize = s.runInitialize := by
  rw [runInitialize_eq, runInitialize_eq]
  rfl

/-- Initialize does not look at the host's transactions. -/
theorem runInitialize_congr_pending (s : State) (p : List Transaction) :
    ({ s with pending := p } : State).runInitialize = { s.runInitialize with pending := p } := by
  rw [runInitialize_eq, runInitialize_eq]
  rfl

end State

section
variable {n : Nat} {s : State} {rest : List Transaction}

theorem run_clearKey (hcfg : s.configured = true) (hp : s.pending = command .clearKey :: rest) :
    core.run (n + 1) s = core.run n { s.eraseKey.succeed with pending := rest } :=
  run_command rfl hp (exec_clearKey_configured { s with pending := rest } hcfg)

theorem run_clearSalt (hcfg : s.configured = true) (hp : s.pending = command .clearSalt :: rest) :
    core.run (n + 1) s = core.run n { s.eraseSalt.succeed with pending := rest } :=
  run_command rfl hp (exec_clearSalt_configured { s with pending := rest } hcfg)

/-- RESET on a configured engine is Initialize (R220). -/
theorem run_reset (hcfg : s.configured = true) (hp : s.pending = command .reset :: rest) :
    core.run (n + 1) s = core.run n { s.runInitialize.succeed with pending := rest } := by
  rw [run_command rfl hp (exec_reset_configured { s with pending := rest } hcfg), State.wipeStream_runInitialize,
    State.runInitialize_congr_pending]
  rfl

end

/-! Teardown. -/

theorem toWords_zeros (m : Nat) : toWords m (zeros (8 * m)) = Vector.replicate m 0 := by
  rw [← toBytes_zero, toWords_toBytes]

/-- Settles O45: RESET starts its stream from the zero key and zero salt the two commands before it have left, and the key
block of a zero key is a zero buffer. -/
theorem teardownLeavesNoSecret : Obligations.TeardownLeavesNoSecret := by
  unfold Obligations.TeardownLeavesNoSecret
  intro s rest hcfg ho hk hp
  refine ⟨_, (run_clearKey hcfg hp).trans (.trans (run_clearSalt hcfg rfl) (run_reset hcfg rfl)),
    by simp, by simp, ?buffer, ?chain, by simp, by simp, by simp, by simp, by simp, by simp⟩
  case buffer => simp [keyBlock_zeros]
  case chain =>
    rw [← toWords_zeros 2]
    refine (State.runInitialize_h _).trans (startStream_h_eq_startChain _ ?_ ?_)
    · exact Nat.lt_of_le_of_lt ho (by decide)
    · exact Nat.lt_of_le_of_lt hk (by decide)

/-! The stored configuration, which the stream RESET starts depends on. -/

/-- Two engines hold the same configuration (10_state.md R28 to R32, R34). -/
structure State.SameConfiguration (s u : State) : Prop where
  configured : s.configured = u.configured
  outputLength : s.outputLength = u.outputLength
  keyLength : s.keyLength = u.keyLength
  key : s.key = u.key
  salt : s.salt = u.salt
  personalization : s.personalization = u.personalization

namespace State

theorem SameConfiguration.trans {s u v : State} (h : s.SameConfiguration u) (h' : u.SameConfiguration v) :
    s.SameConfiguration v where
  configured := h.configured.trans h'.configured
  outputLength := h.outputLength.trans h'.outputLength
  keyLength := h.keyLength.trans h'.keyLength
  key := h.key.trans h'.key
  salt := h.salt.trans h'.salt
  personalization := h.personalization.trans h'.personalization

theorem SameConfiguration.runInitialize_sameStream {s u : State} (h : s.SameConfiguration u) :
    s.runInitialize.SameStream u.runInitialize :=
  State.runInitialize_sameStream s u h.outputLength h.keyLength h.key h.salt h.personalization

theorem runInitialize_sameConfiguration (s : State) : s.runInitialize.SameConfiguration s := by
  constructor <;> simp

theorem absorb_sameConfiguration (s : State) (bytes : List Byte) : (s.absorb bytes).SameConfiguration s := by
  constructor <;> simp

end State

/-! A cleared key is a zero key. -/

theorem keepFirst_zeros (n m : Nat) : keepFirst n (zeros m) = zeros m :=
  keepFirst_of_tail_zero n (zeros m) fun i _ => getElem_zeros m i i.isLt

/-- CLEAR_KEY leaves the configuration that INIT stores for a zero key of the same length and the same salt and personalization,
staged in `u` (R225, 20_memory.md R67, R68). -/
theorem eraseKey_sameConfiguration {s u : State} {outLen keyLen : Byte} (hcfg : s.configured = true)
    (ho : outLen.toNat = s.outputLength) (hk : keyLen.toNat = s.keyLength) (hkey : u.keyIn = Vector.replicate 8 0)
    (hsalt : u.saltIn = toWords 2 s.salt) (hpers : u.persIn = toWords 2 s.personalization) :
    s.eraseKey.SameConfiguration (u.configure outLen keyLen 16 16) where
  configured := hcfg
  outputLength := ho.symm
  keyLength := hk.symm
  key := by
    have hstage : u.keyStage = zeros 64 := (congrArg toBytes hkey).trans (toBytes_zero 8)
    rw [State.eraseKey_key, State.configure_key, hstage, keepFirst_zeros]
  salt := ((congrArg toBytes hsalt).trans (toBytes_toWords 2 s.salt)).symm
  personalization := ((congrArg toBytes hpers).trans (toBytes_toWords 2 s.personalization)).symm

/-- Settles O46: CLEAR_KEY and INIT's writes leave the same configuration, and Initialize starts the same stream from it. -/
theorem clearedKeyIsZeroKey : Obligations.ClearedKeyIsZeroKey := by
  unfold Obligations.ClearedKeyIsZeroKey
  intro s u rest hinv hcfg hp hkey hsalt hpers
  have ho : (BitVec.ofNat 8 s.outputLength).toNat = s.outputLength :=
    Nat.mod_eq_of_lt (Nat.lt_of_le_of_lt hinv.outputLength_le (by decide))
  have hk : (BitVec.ofNat 8 s.keyLength).toNat = s.keyLength :=
    Nat.mod_eq_of_lt (Nat.lt_of_le_of_lt hinv.keyLength_le (by decide))
  have hacc : initAccepts (BitVec.ofNat 8 s.outputLength) (BitVec.ofNat 8 s.keyLength) 16 16 = true := by
    rw [initAccepts_iff, ho, hk]
    exact ⟨hinv.outputLength_pos hcfg, hinv.outputLength_le, hinv.keyLength_le, .inr rfl, .inr rfl⟩
  have hsame : ({ s.eraseKey.succeed with pending := command .reset :: rest } : State).SameConfiguration
      (u.configure (BitVec.ofNat 8 s.outputLength) (BitVec.ofNat 8 s.keyLength) 16 16) :=
    { eraseKey_sameConfiguration hcfg ho hk hkey hsalt hpers with }
  obtain ⟨hh, ht, hbuf, hlen⟩ := hsame.runInitialize_sameStream
  exact ⟨_, _, (run_clearKey hcfg hp).trans (run_reset hcfg rfl), exec_init_accepted _ _ _ _ u hacc, hh, ht, hbuf, hlen,
    by simpa using hsame.outputLength, by simpa using hsame.keyLength, by simpa using hsame.key, by simpa using hsame.salt,
    by simpa using hsame.personalization, by simpa using hsame.configured, by simp⟩

/-! RESET, a message and DIGEST. -/

/-- Splicing the same bytes into the same place again changes nothing. -/
theorem spliceOut_idem (o n : Nat) (digest old : Vector Byte 64) :
    spliceOut o n digest (spliceOut o n digest old) = spliceOut o n digest old := by
  ext k hk : 1
  have hsplice (old : Vector Byte 64) := getElem_spliceOut o n digest old ⟨k, hk⟩
  simp only [Fin.getElem_fin] at hsplice
  rw [hsplice, hsplice]
  split <;> rfl

/-- The stream that has absorbed `message` from Initialize on, finally compressed (R224). -/
def State.digestStream (message : List Byte) (s : State) : State := (s.runInitialize.absorb message).compressFinal

/-- The digest of a message depends on the stored configuration alone (43_finalization.md R207). -/
theorem State.SameConfiguration.digestStream_eq {s u : State} (h : s.SameConfiguration u) (message : List Byte) :
    (s.digestStream message).h = (u.digestStream message).h ∧ (s.digestStream message).t = (u.digestStream message).t :=
  compressFinal_sameStream _ _ (absorb_sameStream _ _ message h.runInitialize_sameStream)

/-- A message in any chunks and a DIGEST that fits, in an open stream `u` (41_update.md R153, 43_finalization.md R200 to
R203). -/
theorem run_absorbChunks_digest {s u : State} {offset : Byte} {chunks : List (List Byte)} {rest : List Transaction}
    (hstream : s.SameStream u) (hcfg : s.configured = true) (hfin : s.finalized = false)
    (hfit : offset.toNat + s.outputLength ≤ 64) (hc : ∀ c ∈ chunks, c.length ≤ 8)
    (hp : s.pending = chunks.flatMap absorbChunk ++ command (.digest offset) :: rest) :
    ∃ t : State, core.run (2 * chunks.length + 1) s = .next t ∧ t.pending = rest ∧ t.finalized = true ∧
      t.SameConfiguration s ∧ t.h = (u.absorb chunks.flatten).compressFinal.h ∧
      t.t = (u.absorb chunks.flatten).compressFinal.t ∧
      t.out = spliceOut offset.toNat s.outputLength (toBytes t.h) s.out := by
  obtain ⟨d, e, hchunks⟩ := run_absorbChunks s chunks _ hcfg hfin hc hp
  have hdigest := exec_digest_fits offset { s.absorb chunks.flatten with pending := rest, din := d, lastErr := e }
    (by simpa using hcfg) (by simpa using hfin) (by simpa using hfit)
  obtain ⟨hh, ht⟩ := State.compressFinal_sameStream _ _ (State.absorb_sameStream s u chunks.flatten hstream)
  exact ⟨_, (run_add _ 1 _ _ hchunks).trans (run_command rfl rfl hdigest), by simp, by simp,
    { s.absorb_sameConfiguration chunks.flatten with }, hh, ht, by simp⟩

/-- RESET, a message in any chunks and a DIGEST that fits, on a configured engine: the configuration stays, and chaining state,
counter and OUT hold the message's digest under it (R220, R224). -/
theorem run_reset_digest {s : State} {offset : Byte} {chunks : List (List Byte)} {rest : List Transaction}
    (hcfg : s.configured = true) (hfit : offset.toNat + s.outputLength ≤ 64) (hc : ∀ c ∈ chunks, c.length ≤ 8)
    (hp : s.pending = command .reset :: (chunks.flatMap absorbChunk ++ command (.digest offset) :: rest)) :
    ∃ t : State, core.run (2 * chunks.length + 2) s = .next t ∧ t.pending = rest ∧ t.finalized = true ∧
      t.SameConfiguration s ∧ t.h = (s.digestStream chunks.flatten).h ∧ t.t = (s.digestStream chunks.flatten).t ∧
      t.out = spliceOut offset.toNat s.outputLength (toBytes t.h) s.out := by
  obtain ⟨t, hrun, hpend, hfin, hsame, hh, ht, hout⟩ := run_absorbChunks_digest
    (s := { s.runInitialize.succeed with pending := chunks.flatMap absorbChunk ++ command (.digest offset) :: rest })
    (u := s.runInitialize) ⟨rfl, rfl, rfl, rfl⟩ (by simpa using hcfg) (by simp) (by simpa using hfit) hc rfl
  exact ⟨t, (run_reset hcfg hp).trans hrun, hpend, hfin, hsame.trans { s.runInitialize_sameConfiguration with }, hh, ht,
    by simpa using hout⟩

/-- Settles O47: the first round leaves the configuration, so the second computes the same digest, and splices it over itself. -/
theorem resetIsIdempotent : Obligations.ResetIsIdempotent := by
  unfold Obligations.ResetIsIdempotent
  intro s offset chunks again rest _ hcfg hfit hc hc' hsplit hp
  obtain ⟨t, hrun, hpend, hfin, hsame, hh, ht, hout⟩ := run_reset_digest hcfg hfit hc hp
  obtain ⟨t', hrun', hpend', hfin', -, hh', ht', hout'⟩ :=
    run_reset_digest (hsame.configured.trans hcfg) (hsame.outputLength.symm ▸ hfit) hc' hpend
  obtain ⟨hsame_h, hsame_t⟩ := hsame.digestStream_eq again.flatten
  rw [hsplit] at hh ht
  have hchain : t'.h = t.h := hh'.trans (hsame_h.trans hh.symm)
  refine ⟨t, t', hrun, hrun', hfin, hfin', hpend', ?_, hchain, ht'.trans (hsame_t.trans ht.symm)⟩
  rw [hout', hchain, hsame.outputLength, hout, spliceOut_idem]

end Sys2Proof.Machine
end

section
/-! SUPPORT and the settled obligations of 60_exceptions.md (R251, R252, R257, R262, R265): the ways a command word can end, as
far as the error fields go, the engines an access leaves alone, and the idle engine. -/

namespace Sys2Proof.Machine

/-! Errors. -/

/-- A command raises an error, is ACK_ERR, or succeeds; a success leaves ERR_STICKY (R251). -/
theorem exec_error_cases {i : Instr} {s t : State} (h : exec i s = .next t) :
    (i ≠ .ackErr ∧ ∃ e, e ≠ .ok ∧ t = s.raiseError e) ∨ (i = .ackErr ∧ t = s.acknowledge) ∨
      (i ≠ .ackErr ∧ t.lastErr = .ok ∧ t.errSticky = s.errSticky) := by
  obtain ⟨e, he, rfl, hack⟩ | ⟨a, b, c, d, rfl, -, rfl⟩ | ⟨n, rfl, -, -, -, rfl⟩ | ⟨o, rfl, -, -, -, rfl⟩ |
    ⟨rfl, -, rfl⟩ | ⟨rfl, -, rfl⟩ | ⟨rfl, -, rfl⟩ | ⟨rfl, rfl⟩ := exec_cases i s t h
  case inl => exact .inl ⟨hack, e, he, rfl⟩
  case inr.inr.inr.inr.inr.inr.inr => exact .inr (.inl ⟨rfl, rfl⟩)
  all_goals exact .inr (.inr (by simp))

/-- The same of a word written to CMD, where an illegal word is one that raises an error (30_encoding.md R95). -/
theorem runCommand_error_cases {w : Word64} {s t : State} (h : runCommand w s = .next t) :
    (decode w ≠ .ok .ackErr ∧ ∃ e, e ≠ .ok ∧ t = s.raiseError e) ∨ (decode w = .ok .ackErr ∧ t = s.acknowledge) ∨
      (decode w ≠ .ok .ackErr ∧ t.lastErr = .ok ∧ t.errSticky = s.errSticky) := by
  cases hd : decode w with
  | ok i =>
    rw [runCommand_of_decode s w i hd] at h
    simpa using exec_error_cases h
  | error e =>
    rw [runCommand_of_decode_error s hd] at h
    cases h
    exact .inl ⟨by simp, .illegalCommand, by decide, rfl⟩

/-- Settles O48: only a raised error leaves LASTERR nonzero, and raising writes the two error fields alone. -/
theorem errorsArePrecise : Obligations.ErrorsArePrecise := by
  unfold Obligations.ErrorsArePrecise
  intro w s t h herr
  obtain ⟨-, e, -, rfl⟩ | ⟨-, rfl⟩ | ⟨-, hok, -⟩ := runCommand_error_cases h
  · rfl
  · exact absurd (State.acknowledge_lastErr s) herr
  · exact absurd hok herr

/-- Settles O50: a raised error sets ERR_STICKY, a success keeps it, and ACK_ERR clears both error fields. -/
theorem stickyBitRemembersFailures : Obligations.StickyBitRemembersFailures := by
  unfold Obligations.StickyBitRemembersFailures
  intro w s t h
  obtain ⟨hw, e, he, rfl⟩ | ⟨hw, rfl⟩ | ⟨hw, hok, hsticky⟩ := runCommand_error_cases h
  · exact ⟨fun _ => by simp [he], fun hack => absurd hack hw⟩
  · exact ⟨fun hne => absurd hw hne, fun _ => ⟨rfl, rfl⟩⟩
  · exact ⟨fun _ => by simp [hok, hsticky], fun hack => absurd hack hw⟩

/-! Engine instances and the idle engine. -/

/-- A write that reaches an engine is refused with the platform as it was, or sets that engine alone (20_memory.md R64). -/
theorem Platform.write_cases {p q : Platform} {addr size k : Nat} {v : Word64} {r : Response}
    (hroute : p.route addr = some k) (h : p.write addr size v = some (q, r)) :
    q = p ∨ ∃ t, q = { engines := p.engines.set k t } := by
  unfold Platform.write at h
  rw [hroute] at h
  dsimp only at h
  split at h
  · cases h
  · split at h
    · cases h
      exact .inr ⟨_, rfl⟩
    · cases h
      exact .inl rfl
    · cases h

/-- A read that is answered leaves the platform as it was (20_memory.md R73). -/
theorem Platform.eq_of_read {p q : Platform} {addr size : Nat} {r : Response} (h : p.read addr size = some (q, r)) :
    q = p := by
  unfold Platform.read at h
  split at h
  · cases h
  · split at h
    · cases h
    · split at h <;> cases h <;> rfl

/-- Settles O9: a write sets at most the list's entry `k`, a read sets none. -/
theorem instancesShareNoState : Obligations.InstancesShareNoState := by
  unfold Obligations.InstancesShareNoState
  intro p q addr size k v r hroute
  refine ⟨fun hwrite => ?_, Platform.eq_of_read⟩
  obtain rfl | ⟨t, rfl⟩ := Platform.write_cases hroute hwrite
  · exact ⟨rfl, fun _ _ => rfl⟩
  · exact ⟨List.length_set, fun j hj => List.getElem?_set_ne hj.symm⟩

/-- Settles O17: with no transaction pending the port serves none. -/
theorem idleEngineHoldsState : Obligations.IdleEngineHoldsState := by
  unfold Obligations.IdleEngineHoldsState
  intro s hp
  unfold step serve
  rw [hp]

end Sys2Proof.Machine
end

section
/-! SUPPORT and the settled obligations of 70_reset_and_hazards.md (R280, R282, R286): the power-on state, the stream RESET
starts, and the staging registers that only INIT looks at. -/

namespace Sys2Proof.Machine

/-! Power-on reset. -/

/-- Settles O56: every item of the power-on state is 0 as it stands, and an engine with no pending transaction is idle. -/
theorem powerOnState : Obligations.PowerOnState := by
  unfold Obligations.PowerOnState
  refine ⟨fun i => ?_, rfl, fun i => ?_, rfl, rfl, rfl, fun i => ?_, fun i => ?_, fun i => ?_, rfl, rfl, rfl, rfl,
    fun i => ?_, fun i => ?_, fun i => ?_, rfl, fun i => ?_, rfl, idleEngineHoldsState State.reset rfl⟩
  all_goals exact Vector.getElem_replicate i.isLt

/-! RESET. -/

/-- Initialize under lengths in range, with the chaining state in words of the parameter block (R121 to R125). -/
theorem State.runInitialize_eq_startChain (s : State) (ho : s.outputLength ≤ 64) (hk : s.keyLength ≤ 64) :
    s.runInitialize = { s with
      h := startChain s.outputLength s.keyLength (toWords 2 s.salt) (toWords 2 s.personalization)
      t := 0
      buffer := if s.keyLength = 0 then zeros 128 else keyBlock s.key
      bufferLength := if s.keyLength = 0 then 0 else 128
      finalized := false } := by
  have hchain := startStream_h_eq_startChain s (by omega) (by omega)
  rw [State.startStream_h] at hchain
  rw [State.runInitialize_eq, hchain]
  obtain h0 | hpos := Nat.eq_zero_or_pos s.keyLength
  · simp [h0]
  · simp [hpos, Nat.ne_of_gt hpos]

/-- Settles O41: on a configured engine RESET is Initialize, which overwrites what RESET zeroes before it (R220). -/
theorem resetRestartsStream : Obligations.ResetRestartsStream := by
  unfold Obligations.ResetRestartsStream
  intro s
  refine ⟨fun hcfg ho hk => ?_, exec_reset_invalid s⟩
  rw [exec_reset_configured s hcfg, State.wipeStream_runInitialize, s.runInitialize_eq_startChain ho hk]
  rfl

/-! The staging registers. -/

/-- The state with other contents of the twelve staging registers (10_state.md R36). -/
def State.withStaging (s : State) (k : Vector Word64 8) (a p : Vector Word64 2) : State :=
  { s with keyIn := k, saltIn := a, persIn := p }

section
variable (s : State) (k : Vector Word64 8) (a p : Vector Word64 2)

namespace State

@[simp] theorem withStaging_bufferLength : (s.withStaging k a p).bufferLength = s.bufferLength := rfl

/-- One turn of Absorb's loop does not look at the staging registers. -/
theorem withStaging_absorbByte (b : Byte) :
    (s.withStaging k a p).absorbByte b = (s.absorbByte b).withStaging k a p := by
  unfold absorbByte
  rw [withStaging_bufferLength]
  split <;> rfl

/-- Absorb does not look at the staging registers. -/
theorem withStaging_absorb (bs : List Byte) : (s.withStaging k a p).absorb bs = (s.absorb bs).withStaging k a p := by
  induction bs generalizing s with
  | nil => rfl
  | cons b bs ih => rw [absorb_cons, absorb_cons, withStaging_absorbByte, ih]

/-- Initialize does not look at the staging registers. -/
theorem withStaging_runInitialize : (s.withStaging k a p).runInitialize = s.runInitialize.withStaging k a p := by
  rw [runInitialize_eq, runInitialize_eq]
  rfl

end State

/-- A command other than INIT ends in the same way whatever the staging registers hold, and carries them along: none of its
conditions and none of its writes looks at them (R286). -/
theorem exec_withStaging (i : Instr) (hinit : ∀ outLen keyLen saltLen persLen, i ≠ .init outLen keyLen saltLen persLen) :
    ∃ t, exec i s = .next t ∧ exec i (s.withStaging k a p) = .next (t.withStaging k a p) := by
  cases i with
  | init outLen keyLen saltLen persLen => exact absurd rfl (hinit outLen keyLen saltLen persLen)
  | update n =>
    by_cases hn : 8 < n.toNat
    · exact ⟨_, exec_update_illegal n s hn, exec_update_illegal n (s.withStaging k a p) hn⟩
    have hn8 : n.toNat ≤ 8 := Nat.le_of_not_lt hn
    by_cases hs : s.configured = false ∨ s.finalized = true
    · exact ⟨_, exec_update_invalid n s hn8 hs, exec_update_invalid n (s.withStaging k a p) hn8 hs⟩
    simp only [not_or, Bool.not_eq_false, Bool.not_eq_true] at hs
    obtain ⟨hcfg, hfin⟩ := hs
    refine ⟨_, exec_update_open n s hn8 hcfg hfin, (exec_update_open n (s.withStaging k a p) hn8 hcfg hfin).trans ?_⟩
    rw [State.withStaging_absorb]
    rfl
  | digest o =>
    by_cases hs : s.configured = false ∨ s.finalized = true
    · exact ⟨_, exec_digest_invalid o s hs, exec_digest_invalid o (s.withStaging k a p) hs⟩
    simp only [not_or, Bool.not_eq_false, Bool.not_eq_true] at hs
    obtain ⟨hcfg, hfin⟩ := hs
    by_cases ho : 64 < o.toNat + s.outputLength
    · exact ⟨_, exec_digest_small o s hcfg hfin ho, exec_digest_small o (s.withStaging k a p) hcfg hfin ho⟩
    have hfit : o.toNat + s.outputLength ≤ 64 := Nat.le_of_not_lt ho
    exact ⟨_, exec_digest_fits o s hcfg hfin hfit, exec_digest_fits o (s.withStaging k a p) hcfg hfin hfit⟩
  | reset =>
    obtain hcfg | hcfg := s.configured.eq_false_or_eq_true
    · refine ⟨_, exec_reset_configured s hcfg, (exec_reset_configured (s.withStaging k a p) hcfg).trans ?_⟩
      rw [State.wipeStream_runInitialize, State.wipeStream_runInitialize, State.withStaging_runInitialize]
      rfl
    · exact ⟨_, exec_reset_invalid s hcfg, exec_reset_invalid (s.withStaging k a p) hcfg⟩
  | clearKey =>
    obtain hcfg | hcfg := s.configured.eq_false_or_eq_true
    · exact ⟨_, exec_clearKey_configured s hcfg, exec_clearKey_configured (s.withStaging k a p) hcfg⟩
    · exact ⟨_, exec_clearKey_invalid s hcfg, exec_clearKey_invalid (s.withStaging k a p) hcfg⟩
  | clearSalt =>
    obtain hcfg | hcfg := s.configured.eq_false_or_eq_true
    · exact ⟨_, exec_clearSalt_configured s hcfg, exec_clearSalt_configured (s.withStaging k a p) hcfg⟩
    · exact ⟨_, exec_clearSalt_invalid s hcfg, exec_clearSalt_invalid (s.withStaging k a p) hcfg⟩
  | ackErr => exact ⟨_, rfl, rfl⟩

end

/-- Settles O24: the commuting equation is the lemma's; the frame is its instance at the contents the registers hold, where
the state run is `s` itself. -/
theorem onlyInitUsesStaging : Obligations.OnlyInitUsesStaging := by
  unfold Obligations.OnlyInitUsesStaging
  intro i s t k a p hinit h
  have hcomm (k' : Vector Word64 8) (a' p' : Vector Word64 2) :
      exec i (s.withStaging k' a' p') = .next (t.withStaging k' a' p') := by
    obtain ⟨t', hexec, hexec'⟩ := exec_withStaging s k' a' p' i hinit
    cases h.symm.trans hexec
    exact hexec'
  have hself : t = t.withStaging s.keyIn s.saltIn s.persIn :=
    Host.Outcome.next.inj (h.symm.trans (hcomm s.keyIn s.saltIn s.persIn))
  exact ⟨hcomm k a p, (congrArg State.keyIn hself :), (congrArg State.saltIn hself :), (congrArg State.persIn hself :)⟩

end Sys2Proof.Machine
end
